-- ==== Sys2Proof/Word.lean ====
section
/-! DEFINITION. The word of this hardware: the byte, and the byte strings that frames and packets are (00_scope.md R13).
Sequence numbers are not bytes: their width is a parameter of the station (Config.lean, `Seq`). -/

namespace Sys2Proof

/-- A byte is 8 bits (R13). -/
abbrev Byte := BitVec 8

/-- A byte string, byte index 0 first (R13, R65). Its length is the length the channel reports (R92). -/
abbrev Bytes := List Byte

/-- A packet: an opaque byte string whose length travels with it (R9). The bound `PKT_MAX` is checked where a packet
enters the station (U3) and is `Memory.wf` where one is held. -/
abbrev Packet := Bytes

end Sys2Proof
end

