-- ==== Sys2Proof/Config.lean ====
section
/-! DEFINITION. The implementation parameters of 00_scope.md R6 to R12. The spec leaves every one of them OPEN, so a
model of the block is a model for EVERY `Config`: the state carries the parameters of its instance (State.lean), no step
writes them, and statements quantify over them (notes/assumptions/1.md). -/

namespace Sys2Proof

/-- The free checksum functions. R10 gives a checksum no value beyond its type (a byte string of length `CK_LEN ≥ 1`):
`CK` number `id` with `CK_LEN = k + 1` is an uninterpreted constant, so nothing about it can be proved but what a
hypothesis (`Config.CkSound`) says (DESIGN CHOICE, notes/assumptions/15.md). -/
opaque Config.freeCk (id k : Nat) (body : Bytes) : Vector Byte (k + 1)

/-- The residue that goes with `Config.freeCk id k` (R10): uninterpreted as well. -/
opaque Config.freeResidue (id k : Nat) (bytes : Bytes) : Nat

/-- The choice of a checksum (R10), as plain data so that a state can be written out and compared. -/
inductive Checksum where
  /-- The spec's reference instance `CK_XOR8`: one byte, the exclusive-or of all bytes (R10, D6). -/
  | xor8
  /-- Any other checksum: number `id`, `CK_LEN = k + 1`. -/
  | free (id k : Nat)
  deriving DecidableEq, Repr

/-- The parameters of one instance of the block (R6, R9, R10, R11), with their legal ranges. -/
structure Config where
  /-- `SEQ_BITS`, written `n` (R6). -/
  n : Nat
  /-- `PKT_MAX`, the longest packet in bytes (R9). -/
  pktMax : Nat
  /-- `CK`, `CK_LEN` and `Residue` (R10). -/
  checksum : Checksum
  /-- `DATA_TIMER_DURATION` (R11): timing only. -/
  dataTimerDuration : Nat
  /-- `ACK_TIMER_DURATION` (R11): timing only. -/
  ackTimerDuration : Nat
  n_pos : 1 ≤ n
  n_le : n ≤ 8
  pktMax_pos : 1 ≤ pktMax
  deriving DecidableEq, Repr

namespace Config

/-- `MAX_SEQ = 2^n − 1` (R7). -/
def maxSeq (c : Config) : Nat := 2 ^ c.n - 1

/-- `M = MAX_SEQ + 1 = 2^n`, the ring size (R7). -/
def M (c : Config) : Nat := 2 ^ c.n

/-- `NR_BUFS = (MAX_SEQ+1)/2`: window size, slots, arrived bits, data timers (R8). -/
def nrBufs (c : Config) : Nat := c.M / 2

theorem nrBufs_pos (c : Config) : 0 < c.nrBufs := by
  have h : 2 ^ 1 ≤ 2 ^ c.n := Nat.pow_le_pow_right (by decide) c.n_pos
  unfold nrBufs M
  omega

/-- `CK_LEN` (R10). -/
def ckLen (c : Config) : Nat :=
  match c.checksum with
  | .xor8 => 1
  | .free _ k => k + 1

/-- The exclusive-or of the bytes of a string: both halves of `CK_XOR8` (R10). -/
def xorBytes (bs : Bytes) : Byte := bs.foldl (· ^^^ ·) 0

/-- `CK(body)` (R10). -/
def ck (c : Config) (body : Bytes) : Bytes :=
  match c.checksum with
  | .xor8 => [xorBytes body]
  | .free id k => (freeCk id k body).toList

/-- `Residue(bytes)` (R10). -/
def residue (c : Config) (bytes : Bytes) : Nat :=
  match c.checksum with
  | .xor8 => (xorBytes bytes).toNat
  | .free id k => freeResidue id k bytes

/-- The one property of the checksum that may be assumed, `CK_SOUND` (R10). It is a hypothesis of the statements that
need it, never a field. -/
def CkSound (c : Config) : Prop := ∀ body : Bytes, c.residue (body ++ c.ck body) = 0

/-- `HDR_LEN = 3`: the kind, ack and seq bytes (R12). -/
def hdrLen : Nat := 3

/-- `MIN_LEN = HDR_LEN + CK_LEN` (R12, R92). -/
def minLen (c : Config) : Nat := hdrLen + c.ckLen

/-- `MAX_LEN = HDR_LEN + PKT_MAX + CK_LEN` (R12, R92). -/
def maxLen (c : Config) : Nat := hdrLen + c.pktMax + c.ckLen

/-- The instance the machine resets to: the document's example configuration (`MAX_SEQ = 7`, `NR_BUFS = 4`) with the
spec's test values `PKT_MAX = 8`, `CK_XOR8` (95_test_vectors.md). DESIGN CHOICE, notes/assumptions/1.md: the spec leaves
the parameters open, and the statements hold for every `Config`. -/
def reference : Config :=
  { n := 3, pktMax := 8, checksum := .xor8, dataTimerDuration := 1, ackTimerDuration := 1
    n_pos := by decide, n_le := by decide, pktMax_pos := by decide }

end Config

/-- A sequence number of an instance: an `n`-bit unsigned register value, so the bound `[0, MAX_SEQ]` is carried by the
type (R7, R13, R119, R129). -/
abbrev Seq (c : Config) := BitVec c.n

/-- A slot index: `0 ≤ i < NR_BUFS`, again in the type (R61, R64). -/
abbrev Slot (c : Config) := Fin c.nrBufs

end Sys2Proof
end

