-- ==== Sys2Proof/Syntax.lean ====
section
/-! DEFINITION. The syntax, whole: one constructor of `Instr` per row of spec/opcode_table.json (3 frames, 5 events, 6
Sequence Space functions, 22 handler operations; R3, R97, R99, R100, R101), the frame record, and what stands at the
ports of a station before it is decoded. Sequence numbers stand here as the byte `zext_8` of R91 and R94 (n ≤ 8);
WellFormed.lean checks them against `MAX_SEQ`. -/

namespace Sys2Proof

/-- The three frame kinds (R90, R93): exactly these. -/
inductive Kind where
  | data
  | ack
  | nak
  deriving DecidableEq, Repr

/-- The frame record (R90), without its checksum: that is `CK` of the rest (R96). `ack` and `seq` are the bytes of R91. -/
structure Frame where
  kind : Kind
  ack : Byte
  seq : Byte
  payload : Packet
  deriving DecidableEq, Repr

/-- The result of `VALIDATE` and `PARSE`: a frame or the one error, which records nothing (R143, R144, R250). -/
inductive Checked where
  | frame (f : Frame)
  | corruptionError
  deriving DecidableEq, Repr

/-- Where bits enter a station. The three encodings of 30_encoding.md live at three different places, so the same byte
means different things at each (`0x01` is DATA, CHANNEL_READY or PRED). -/
inductive Port where
  /-- The inbound channel: one whole byte string with its length (R91, R242). -/
  | channel
  /-- The event input of the dispatch loop: a code of R99 and its payload. -/
  | event
  /-- The function select and operand ports of the Sequence Space unit (R100). -/
  | select
  deriving DecidableEq, Repr

/-- One thing presented to the station: the port and the bytes standing there. -/
structure Presented where
  port : Port
  bytes : Bytes
  deriving DecidableEq, Repr

/-- The operations of the block: every row of spec/opcode_table.json. -/
inductive Instr where
  -- Frames: the arrival of a frame that has validated (R97, R224).
  | data (ackField seqField : Byte) (payload : Packet)
  | ack (ackField seqField : Byte)
  | nak (ackField seqField : Byte)
  -- Events (R99, R222 to R226). `none` is the producer's None, and the channel's corruption indication.
  | newPacketReady (packet : Option Packet)
  | channelReady
  | frameArrived (input : Option Bytes)
  | dataTimeout (seq : Byte)
  | ackTimeout
  -- Sequence Space functions (R120 to R125).
  | inc (a : Byte)
  | pred (a : Byte)
  | addw (a : Byte)
  | slot (a : Byte)
  | dist (a b : Byte)
  | between (a b c : Byte)
  -- Frame Codec (R140 to R145).
  | build (kind : Kind) (seq : Byte)
  | serialize (frame : Frame)
  | piggyback
  | validate (input : Option Bytes)
  | parse (bytes : Bytes)
  | validateMalformed (k a q : Byte) (len : Nat)
  -- Sender Window (R160 to R163).
  | submit (packet : Packet)
  | ackProgress (ackField : Byte)
  | timeoutResend (seq : Byte)
  | nakResend (ackField : Byte)
  -- Receiver Window (R180 to R183).
  | onFrameDataStep1 (seq : Byte)
  | onFrameDataStep2 (seq : Byte) (payload : Packet)
  | onFrameDataStep3
  | onFrameData (frame : Frame)
  -- Timers and NAK suppression (R200 to R207), the admission gate (R230).
  | startDataTimer (seq : Byte)
  | stopDataTimer (seq : Byte)
  | startAckTimer
  | stopAckTimer
  | sendFrame (kind : Kind) (seq : Byte)
  | sendFrameNak
  | corruptNak
  | gate
  deriving DecidableEq, Repr

end Sys2Proof
end

