-- ==== Sys2Proof/WellFormed.lean ====
section
/-! DEFINITION. Well-formed operands: every sequence-number operand in `[0, MAX_SEQ]` (R129), every packet within
`PKT_MAX` (R9), every frame record one that R147 allows, and a string given to `PARSE` long enough to hold a header and a
checksum (R144). Checks are Bools, one per notion. -/

namespace Sys2Proof

/-- `a` holds a sequence number: `a ≤ MAX_SEQ` (R94, R95, R129). -/
def seqOk (c : Config) (a : Byte) : Bool := decide (a.toNat ≤ c.maxSeq)

/-- `len(p) ≤ PKT_MAX` (R9). -/
def packetOk (c : Config) (p : Packet) : Bool := decide (p.length ≤ c.pktMax)

/-- A frame record as R147 describes it: fields in range, a payload only in a DATA frame. -/
def frameOk (c : Config) (f : Frame) : Bool :=
  seqOk c f.ack && seqOk c f.seq &&
    match f.kind with
    | .data => packetOk c f.payload
    | .ack => f.payload.isEmpty
    | .nak => f.payload.isEmpty

/-- Every operand of the operation is one the spec gives it a meaning for. -/
def Instr.wf (c : Config) : Instr → Bool
  | .data a q p => frameOk c ⟨.data, a, q, p⟩
  | .ack a q => frameOk c ⟨.ack, a, q, []⟩
  | .nak a q => frameOk c ⟨.nak, a, q, []⟩
  | .newPacketReady none => true
  | .newPacketReady (some p) => packetOk c p
  | .channelReady => true
  | .frameArrived _ => true
  | .dataTimeout q => seqOk c q
  | .ackTimeout => true
  | .inc a => seqOk c a
  | .pred a => seqOk c a
  | .addw a => seqOk c a
  | .slot a => seqOk c a
  | .dist a b => seqOk c a && seqOk c b
  | .between a b d => seqOk c a && seqOk c b && seqOk c d
  | .build _ q => seqOk c q
  | .serialize f => frameOk c f
  | .piggyback => true
  | .validate _ => true
  | .parse bs => decide (c.minLen ≤ bs.length)
  | .validateMalformed _ _ _ _ => true
  | .submit p => packetOk c p
  | .ackProgress a => seqOk c a
  | .timeoutResend q => seqOk c q
  | .nakResend a => seqOk c a
  | .onFrameDataStep1 q => seqOk c q
  | .onFrameDataStep2 q p => seqOk c q && packetOk c p
  | .onFrameDataStep3 => true
  | .onFrameData f => frameOk c f && decide (f.kind = .data)
  | .startDataTimer q => seqOk c q
  | .stopDataTimer q => seqOk c q
  | .startAckTimer => true
  | .stopAckTimer => true
  | .sendFrame _ q => seqOk c q
  | .sendFrameNak => true
  | .corruptNak => true
  | .gate => true

end Sys2Proof
end

