-- ==== Sys2Proof/Decode.lean ====
section
/-! DEFINITION. Decoding, total on any bytes at any port and rejecting by name, and after it the encoder. On the channel
port decoding IS the Frame Codec's `VALIDATE` and encoding IS its `SERIALIZE` (41_codec.md), so both stand here; the
machine's meanings call them. The event port and the select port carry the codes of R99 and R100; the byte form of an
event's payload is the model's (notes/assumptions/3.md). The 22 handler operations have no encoding (R101), so nothing
decodes to them and `encode` answers none. -/

namespace Sys2Proof

/-! ### The Frame Codec's byte strings (R91 to R98, R141, R143 to R145) -/

/-- `code(kind)`: DATA = 1, ACK = 2, NAK = 3 (R93). -/
def kindCode : Kind → Byte
  | .data => 0x01
  | .ack => 0x02
  | .nak => 0x03

/-- `kindof(k)` (R144); every other byte is reserved (R93, R98). -/
def kindOf (k : Byte) : Option Kind :=
  match k.toNat with
  | 1 => some .data
  | 2 => some .ack
  | 3 => some .nak
  | _ => none

/-- The bytes before the checksum: kind, ack, seq, payload (R91). -/
def frameBody (f : Frame) : Bytes := [kindCode f.kind, f.ack, f.seq] ++ f.payload

/-- `SERIALIZE(f)`: the body and its checksum, attached last (R141). -/
def serializeFrame (c : Config) (f : Frame) : Bytes := frameBody f ++ c.ck (frameBody f)

/-- `Malformed(k, a, s, L)` (R145): the four conditions, in the order of the rule. -/
def malformed (c : Config) (k a q : Byte) (len : Nat) : Bool :=
  (kindOf k).isNone
  || decide (a.toNat > c.maxSeq)
  || decide (q.toNat > c.maxSeq)
  || ((k == 0x02 || k == 0x03) && decide (len ≠ c.minLen))
  || (k == 0x01 && decide (len > c.maxLen))

/-- Byte `i` of a string (R13). Used below `len` only. -/
def byteAt (bs : Bytes) (i : Nat) : Byte := bs.getD i 0

/-- `bytes[3 .. L − CK_LEN)` (R144). -/
def payloadOf (c : Config) (bs : Bytes) : Packet := (bs.take (bs.length - c.ckLen)).drop Config.hdrLen

/-- `PARSE(bytes)` (R144). -/
def parseFrame (c : Config) (bs : Bytes) : Checked :=
  if malformed c (byteAt bs 0) (byteAt bs 1) (byteAt bs 2) bs.length then .corruptionError
  else
    match kindOf (byteAt bs 0) with
    | some kind => .frame { kind := kind, ack := byteAt bs 1, seq := byteAt bs 2, payload := payloadOf c bs }
    | none => .corruptionError

/-- `VALIDATE(input)` (R143, R148): `none` is the channel's corruption indication. -/
def validateInput (c : Config) (input : Option Bytes) : Checked :=
  match input with
  | none => .corruptionError
  | some bs =>
    if bs.length < c.minLen then .corruptionError
    else if c.residue bs ≠ 0 then .corruptionError
    else parseFrame c bs

/-! ### The decoder -/

/-- Why the bytes at a port are no operation of the block. -/
inductive DecodeError where
  /-- Channel port: `VALIDATE` answers `CorruptionError` (R143, R145). The step takes the corruption path on it. -/
  | corruptFrame
  /-- Nothing stands at the port. -/
  | nothingThere
  /-- Event port: the code is none of 0 to 4 (R99: there is no sixth event). -/
  | reservedEventCode
  /-- Select port: `110`, `111`, or a byte wider than the 3-bit select (R100, U9). -/
  | reservedSelect
  /-- The payload or operand bytes are not those the code takes. -/
  | badOperands
  /-- A sequence-number operand above `MAX_SEQ` (R129, U8). -/
  | seqOutOfRange
  /-- A packet longer than `PKT_MAX` (R240, U3). -/
  | packetTooLong
  deriving DecidableEq, Repr

/-- What the decoder answers. -/
inductive Decoded where
  | instr (i : Instr)
  | rejected (why : DecodeError)
  deriving DecidableEq, Repr

/-- The operation a validated frame is (R97, R224). -/
def frameInstr (f : Frame) : Instr :=
  match f.kind with
  | .data => .data f.ack f.seq f.payload
  | .ack => .ack f.ack f.seq
  | .nak => .nak f.ack f.seq

/-- The channel port: a byte string is a frame or is corrupt (R143, R248). -/
def decodeChannel (c : Config) (bs : Bytes) : Decoded :=
  match validateInput c (some bs) with
  | .frame f => .instr (frameInstr f)
  | .corruptionError => .rejected .corruptFrame

/-- The payload bytes of NEW_PACKET_READY: `00` is the producer's None, `01` and then the packet (assumptions/3). -/
def decodeNewPacket (c : Config) : Bytes → Decoded
  | [] => .rejected .badOperands
  | flag :: p =>
    match flag.toNat, p with
    | 0, [] => .instr (.newPacketReady none)
    | 1, p => if packetOk c p then .instr (.newPacketReady (some p)) else .rejected .packetTooLong
    | _, _ => .rejected .badOperands

/-- The payload bytes of FRAME_ARRIVED: `00` is the corruption indication, `01` and then the byte string. -/
def decodeArrival : Bytes → Decoded
  | [] => .rejected .badOperands
  | flag :: bs =>
    match flag.toNat, bs with
    | 0, [] => .instr (.frameArrived none)
    | 1, bs => .instr (.frameArrived (some bs))
    | _, _ => .rejected .badOperands

/-- One sequence-number operand and nothing after it. -/
def decodeSeq1 (c : Config) (mk : Byte → Instr) : Bytes → Decoded
  | [a] => if seqOk c a then .instr (mk a) else .rejected .seqOutOfRange
  | _ => .rejected .badOperands

/-- Two sequence-number operands and nothing after them. -/
def decodeSeq2 (c : Config) (mk : Byte → Byte → Instr) : Bytes → Decoded
  | [a, b] => if seqOk c a && seqOk c b then .instr (mk a b) else .rejected .seqOutOfRange
  | _ => .rejected .badOperands

/-- Three sequence-number operands and nothing after them. -/
def decodeSeq3 (c : Config) (mk : Byte → Byte → Byte → Instr) : Bytes → Decoded
  | [a, b, d] => if seqOk c a && seqOk c b && seqOk c d then .instr (mk a b d) else .rejected .seqOutOfRange
  | _ => .rejected .badOperands

/-- No operand. -/
def decodeSeq0 (i : Instr) : Bytes → Decoded
  | [] => .instr i
  | _ => .rejected .badOperands

/-- The event port: the code of R99 in the first byte, then the event's payload. -/
def decodeEvent (c : Config) : Bytes → Decoded
  | [] => .rejected .nothingThere
  | code :: rest =>
    match code.toNat with
    | 0 => decodeNewPacket c rest
    | 1 => decodeSeq0 .channelReady rest
    | 2 => decodeArrival rest
    | 3 => decodeSeq1 c .dataTimeout rest
    | 4 => decodeSeq0 .ackTimeout rest
    | _ => .rejected .reservedEventCode

/-- The select port: the 3-bit select of R100 in the first byte, then the operand ports in use. -/
def decodeSelect (c : Config) : Bytes → Decoded
  | [] => .rejected .nothingThere
  | sel :: rest =>
    match sel.toNat with
    | 0 => decodeSeq1 c .inc rest
    | 1 => decodeSeq1 c .pred rest
    | 2 => decodeSeq1 c .addw rest
    | 3 => decodeSeq1 c .slot rest
    | 4 => decodeSeq2 c .dist rest
    | 5 => decodeSeq3 c .between rest
    | _ => .rejected .reservedSelect

/-- The decoder: total, one answer for any bytes at any port. -/
def decode (c : Config) (p : Presented) : Decoded :=
  match p.port with
  | .channel => decodeChannel c p.bytes
  | .event => decodeEvent c p.bytes
  | .select => decodeSelect c p.bytes

/-! ### The encoder -/

/-- The word of an operation, from the encodings of R91, R99 and R100; none for a handler operation (R101). -/
def encode (c : Config) : Instr → Option Presented
  | .data a q p => some ⟨.channel, serializeFrame c ⟨.data, a, q, p⟩⟩
  | .ack a q => some ⟨.channel, serializeFrame c ⟨.ack, a, q, []⟩⟩
  | .nak a q => some ⟨.channel, serializeFrame c ⟨.nak, a, q, []⟩⟩
  | .newPacketReady none => some ⟨.event, [0, 0]⟩
  | .newPacketReady (some p) => some ⟨.event, 0 :: 1 :: p⟩
  | .channelReady => some ⟨.event, [1]⟩
  | .frameArrived none => some ⟨.event, [2, 0]⟩
  | .frameArrived (some bs) => some ⟨.event, 2 :: 1 :: bs⟩
  | .dataTimeout q => some ⟨.event, [3, q]⟩
  | .ackTimeout => some ⟨.event, [4]⟩
  | .inc a => some ⟨.select, [0, a]⟩
  | .pred a => some ⟨.select, [1, a]⟩
  | .addw a => some ⟨.select, [2, a]⟩
  | .slot a => some ⟨.select, [3, a]⟩
  | .dist a b => some ⟨.select, [4, a, b]⟩
  | .between a b d => some ⟨.select, [5, a, b, d]⟩
  | .build _ _ => none
  | .serialize _ => none
  | .piggyback => none
  | .validate _ => none
  | .parse _ => none
  | .validateMalformed _ _ _ _ => none
  | .submit _ => none
  | .ackProgress _ => none
  | .timeoutResend _ => none
  | .nakResend _ => none
  | .onFrameDataStep1 _ => none
  | .onFrameDataStep2 _ _ => none
  | .onFrameDataStep3 => none
  | .onFrameData _ => none
  | .startDataTimer _ => none
  | .stopDataTimer _ => none
  | .startAckTimer => none
  | .stopAckTimer => none
  | .sendFrame _ _ => none
  | .sendFrameNak => none
  | .corruptNak => none
  | .gate => none

/-! ### Words of the opcode table -/

/-- The bytes of a table word, bit 0 the least significant bit of the first byte. -/
def wordBytes (nbits w : Nat) : Bytes :=
  (List.range ((nbits + 7) / 8)).map fun i => BitVec.ofNat 8 (w >>> (8 * i))

/-- A string brought to at least `k` bytes with bytes of zeros (the operand bytes the table gives no bits). -/
def padTo (k : Nat) (bs : Bytes) : Bytes := bs ++ List.replicate (k - bs.length) 0

/-- How many bytes the event with this code has when its payload bytes are zero. -/
def eventLen (code : Byte) : Nat :=
  match code.toNat with
  | 0 => 2
  | 2 => 2
  | 3 => 2
  | _ => 1

/-- Where a table word stands (notes/assumptions/4.md). A first byte that is a frame kind is a frame: its header is
completed with zeros and the checksum attached, as every frame has it (R96). `0x05`, which is no event code, is the select
of BETWEEN with zero operands. Any other word is an event. -/
def tableWord (c : Config) (nbits w : Nat) : Presented :=
  match wordBytes nbits w with
  | [] => ⟨.event, []⟩
  | b :: rest =>
    match kindOf b with
    | some _ => ⟨.channel, padTo Config.hdrLen (b :: rest) ++ c.ck (padTo Config.hdrLen (b :: rest))⟩
    | none => if b = 0x05 then ⟨.select, padTo 4 (b :: rest)⟩ else ⟨.event, padTo (eventLen b) (b :: rest)⟩

/-- The operation the decoder reads from a table word, at the reference instance. -/
def decodeTableWord (nbits w : Nat) : Option Instr :=
  match decode Config.reference (tableWord Config.reference nbits w) with
  | .instr i => some i
  | .rejected _ => none

end Sys2Proof
end

