-- ==== Sys2Proof/Machine/State.lean ====
section
/-! DEFINITION. The state of one station, whole (10_state.md R20 to R35), what stands around it (R37: what the outside
presents, and what the station's outputs have carried), and the state after reset (R280). The register widths are the
types: `Seq c` is an `n`-bit register, `Memory c` and the banks have `NR_BUFS` entries. INVENTORY.md lists every field. -/

namespace Sys2Proof.Machine

/-- Why the machine stops with a fault. -/
inductive Fault where
  /-- `BUILD` read output slot `slot`, which no `SUBMIT` has written since reset: it has no value (R26, R62, R284, U6).
  Raised by BUILD, SendFrame, TIMEOUT_RESEND, NAK_RESEND and the events that call them. Safe. -/
  | unwrittenOutSlot (slot : Nat)
  /-- The drain loop read input slot `slot`, which nothing has written since reset (R31, R62, R284, U6).
  Raised by ON_FRAME_DATA step 3 and the operations that call it. Safe. -/
  | unwrittenInSlot (slot : Nat)
  deriving DecidableEq, Repr

/-- Why an operation has no step. -/
inductive Refusal where
  /-- An operation with no meaning yet; no arm answers this. Safe. -/
  | notModelled (mnemonic : String)
  /-- An operand above `MAX_SEQ`, which no `n`-bit port can carry (R129, U8). Raised by every operation with a
  sequence-number operand. Safe. -/
  | seqOutOfRange
  /-- A packet longer than `PKT_MAX` (R222, R240, U3). Raised by NEW_PACKET_READY, SUBMIT, ON_FRAME_DATA step 2. Safe. -/
  | packetTooLong
  /-- A frame record that is no frame of R147. Raised by the frame rows, SERIALIZE and ON_FRAME_DATA. Safe. -/
  | illFormedFrame
  /-- NEW_PACKET_READY or SUBMIT while `intake_en = 0` (R222, R313, U2). Safe. -/
  | intakeClosed
  /-- SUBMIT with `nbuffered = NR_BUFS` (R160 corner case c, U2). Safe. -/
  | windowFull
  /-- DATA_TIMEOUT or TIMEOUT_RESEND for a timer that is disarmed or holds another sequence number (R162, R225, U4).
  Safe. -/
  | staleDataTimeout
  /-- ACK_TIMEOUT with the ack timer disarmed (R226, U5). Safe. -/
  | ackTimerDisarmed
  /-- PARSE of a string shorter than `MIN_LEN`, which has no fields to extract (R144). Safe. -/
  | stringTooShort
  /-- What was presented is no operation of the block (Decode.lean says why). Raised by `step`. Safe. -/
  | undecodable (why : DecodeError)
  /-- A move of the two-station link that is not there to make: an empty channel, no packet to offer (Link.lean). Safe. -/
  | noSuchMove
  deriving DecidableEq, Repr

/-- What a step of the machine, or a handler of the station, ends in. -/
abbrev Result (σ : Type) := Host.Outcome σ Fault Refusal

/-- The value an operation that computes one has answered. MODEL's own: the spec's functions return values to their
caller, and a model of one operation at a time must show them (DESIGN CHOICE, notes/assumptions/2.md). -/
inductive Value where
  | none
  /-- A sequence number or a slot, `zext_8` (R100). -/
  | num (v : Byte)
  /-- The 1-bit result of `BETWEEN`, or of `Malformed`. -/
  | bit (b : Bool)
  | frame (f : Frame)
  | bytes (bs : Bytes)
  | corruptionError
  deriving DecidableEq, Repr

/-- What the station's three outputs carry, in the order produced (R14, R67, R248). -/
inductive Output where
  /-- `Transmit(bytes)` to the channel (R242). -/
  | transmit (bytes : Bytes)
  /-- `Deliver(p)` to the consumer (R241). -/
  | deliver (p : Packet)
  /-- `Intake(b)`, the admission signal driven (R230, R244). -/
  | intake (b : Bool)
  deriving DecidableEq, Repr

/-- A packet memory: `NR_BUFS` slots of a packet each (R60); `none` is a slot never written since reset, which holds no
value (R26, R31, R284; DESIGN CHOICE, notes/assumptions/8.md). -/
abbrev Memory (c : Config) := Vector (Option Packet) c.nrBufs

/-- One retransmission timer (R27). -/
structure DataTimer (c : Config) where
  armed : Bool
  seq : Seq c
  /-- Timing only: written by `StartDataTimer`, read by no rule (R27, R36). -/
  remaining : Nat
  deriving DecidableEq, Repr

/-- The delayed-ack timer (R32). -/
structure AckTimer where
  armed : Bool
  /-- Timing only: written by `StartAckTimer`, read by no rule (R32, R36). -/
  remaining : Nat
  deriving DecidableEq, Repr

/-- One station: all of R20, and the record of its outputs. -/
structure Station (c : Config) where
  /-- R23 -/
  ackExpected : Seq c
  /-- R24 -/
  nextFrameToSend : Seq c
  /-- R25 -/
  nbuffered : Seq c
  /-- R26, the memory OUT -/
  outBuf : Memory c
  /-- R27 -/
  dataTimer : Vector (DataTimer c) c.nrBufs
  /-- R28 -/
  frameExpected : Seq c
  /-- R29 -/
  tooFar : Seq c
  /-- R30 -/
  arrived : Vector Bool c.nrBufs
  /-- R31, the memory IN -/
  inBuf : Memory c
  /-- R32 -/
  ackTimer : AckTimer
  /-- R33 -/
  noNak : Bool
  /-- R34 -/
  chReady : Bool
  /-- R35 -/
  intakeEn : Bool
  /-- The outputs so far, oldest first. The record belongs to the environment (R37, R248), not to the station: no
  operation reads it (DESIGN CHOICE, notes/assumptions/7.md). -/
  outs : List Output
  deriving DecidableEq, Repr

/-- The machine: the parameters of the instance (R22: constants; no step writes them), the station, what the outside will
present next, and the last answer. -/
structure State where
  cfg : Config
  station : Station cfg
  /-- What the collaborators present, in the order in which it will be taken: their choice among enabled events is made
  here, as data (R256, R37; notes/assumptions/5.md). -/
  inbox : List Presented
  /-- MODEL's own: the value last answered. -/
  ret : Value
  deriving DecidableEq, Repr

/-- The reset state of a station (R280). What R280 leaves unspecified: the buffer slots hold no value; the timers' `seq`
and `remaining`, never read while disarmed, hold 0 (DESIGN CHOICE, notes/assumptions/6.md). -/
def Station.reset (c : Config) : Station c where
  ackExpected := 0
  nextFrameToSend := 0
  nbuffered := 0
  outBuf := Vector.replicate c.nrBufs none
  dataTimer := Vector.replicate c.nrBufs ⟨false, 0, 0⟩
  frameExpected := 0
  tooFar := BitVec.ofNat c.n c.nrBufs
  arrived := Vector.replicate c.nrBufs false
  inBuf := Vector.replicate c.nrBufs none
  ackTimer := ⟨false, 0⟩
  noNak := true
  chReady := false
  intakeEn := false
  outs := []

/-- The machine after reset, for the instance `c`: the station at R280, nothing presented. -/
def State.resetOf (c : Config) : State where
  cfg := c
  station := Station.reset c
  inbox := []
  ret := .none

/-- The machine after reset, at the reference instance (notes/assumptions/1.md). -/
def State.reset : State := State.resetOf Config.reference

end Sys2Proof.Machine
end

