-- ==== Sys2Proof/Machine/SeqSpace.lean ====
section
/-! DEFINITION. The Sequence Space unit (40_seqspace.md): six pure functions of `n`-bit unsigned operands. A result is
the true result modulo `M`, the low `n` bits (R119); nothing detects a wrap. -/

namespace Sys2Proof.Machine

/-- `INC(k) = (k + 1) mod M` (R120). -/
def seqInc {c : Config} (k : Seq c) : Seq c := BitVec.ofNat c.n (k.toNat + 1)

/-- `PRED(k) = (k + MAX_SEQ) mod M` (R121). -/
def seqPred {c : Config} (k : Seq c) : Seq c := BitVec.ofNat c.n (k.toNat + c.maxSeq)

/-- `ADDW(k) = (k + NR_BUFS) mod M` (R122). -/
def seqAddw {c : Config} (k : Seq c) : Seq c := BitVec.ofNat c.n (k.toNat + c.nrBufs)

/-- `SLOT(k) = k mod NR_BUFS` (R123): always a slot index (R64). -/
def seqSlot {c : Config} (k : Seq c) : Slot c := ⟨k.toNat % c.nrBufs, Nat.mod_lt _ c.nrBufs_pos⟩

/-- `DIST(a, b) = (b − a) mod M`, the clockwise distance from `a` to `b` (R124). -/
def seqDist {c : Config} (a b : Seq c) : Seq c := BitVec.ofNat c.n (b.toNat + (c.M - a.toNat))

/-- `BETWEEN(a, b, c)`: the three orderings of R125, with the ordinary unsigned comparisons. -/
def seqBetween {c : Config} (a b d : Seq c) : Bool :=
  decide ((a ≤ b ∧ b < d) ∨ (d < a ∧ a ≤ b) ∨ (b < d ∧ d < a))

end Sys2Proof.Machine
end

