-- ==== Sys2Proof/Machine/Operands.lean ====
section
/-! DEFINITION. Every operand form: a sequence number in a byte (R91, R94), a packet (R9), a frame record (R147); and the
answer of an operation that computes a value. An operand the spec gives no meaning to has no step, under its name
(DESIGN CHOICE, notes/assumptions/9.md). -/

namespace Sys2Proof.Machine

/-- The `n`-bit sequence number in the low bits of a byte (R91). -/
def seqOf (c : Config) (a : Byte) : Seq c := a.setWidth c.n

/-- `zext_8(v)`: an `n`-bit value as a byte (R13, R94). -/
def zext8 {c : Config} (v : Seq c) : Byte := v.setWidth 8

/-- A slot index as a byte: `n − 1` significant bits (R100). -/
def slot8 {c : Config} (i : Slot c) : Byte := BitVec.ofNat 8 i.val

/-- A sequence-number operand (R129, U8). -/
def withSeq (s : State) (a : Byte) (k : Seq s.cfg → Result State) : Result State :=
  if seqOk s.cfg a then k (seqOf s.cfg a) else .refused .seqOutOfRange

/-- A packet operand (R9, U3). -/
def withPacket (s : State) (p : Packet) (k : Result State) : Result State :=
  if packetOk s.cfg p then k else .refused .packetTooLong

/-- A frame operand (R147). -/
def withFrame (s : State) (f : Frame) (k : Result State) : Result State :=
  if frameOk s.cfg f then k else .refused .illFormedFrame

/-- The machine answers a value and changes nothing else (R119: no state, no flags; R140, R143: writes nothing). -/
def answer (s : State) (v : Value) : Result State := .next { s with ret := v }

/-- The value of a `VALIDATE` or `PARSE` (R143, R144, R250). -/
def checkedValue : Checked → Value
  | .frame f => .frame f
  | .corruptionError => .corruptionError

end Sys2Proof.Machine
end

