-- ==== Sys2Proof/Machine/Flags.lean ====
section
/-! DEFINITION. The one-bit flags of a station that are not a field of a timer or a bank: `no_nak` (R33, R205, R206),
`ch_ready` (R34, R223), and the admission level `intake_en` (R35, R230). The block has no condition codes (R21). -/

namespace Sys2Proof.Machine

/-- The gate formula: `(nbuffered < NR_BUFS) and (ch_ready = 1)` (R230). -/
def gateOpen {c : Config} (st : Station c) : Bool := decide (st.nbuffered.toNat < c.nrBufs) && st.chReady

/-- `GATE()` (R230): the level is rewritten and driven whether or not it changed. -/
def gate {c : Config} (st : Station c) : Station c :=
  { st with intakeEn := gateOpen st, outs := st.outs ++ [.intake (gateOpen st)] }

/-- `no_nak <- 0`, after every transmission of a NAK (R205). -/
def clearNoNak {c : Config} (st : Station c) : Station c := { st with noNak := false }

/-- `ch_ready <- 1` (R223); nothing clears it (D16). -/
def setChReady {c : Config} (st : Station c) : Station c := { st with chReady := true }

end Sys2Proof.Machine
end

