-- ==== Sys2Proof/Machine/Ops.lean ====
section
/-! DEFINITION. The named operations the meanings are built from: sequencing, the two packet memories (R62), the timers
(R200 to R203), the outputs (R14), `BUILD` and `SendFrame` (R140 to R142, R205), the block's one error, taken once for
every cause (R207, R250), and the end of a handler (R258). Every station operation is a function of the station alone;
`onStation` runs one on the machine. -/

namespace Sys2Proof.Machine

/-! ### Sequencing -/

/-- One action after another inside a handler (R67): a stop of the first is the stop of both. -/
def chain {σ τ : Type} (r : Result σ) (f : σ → Result τ) : Result τ :=
  match r with
  | .next s => f s
  | .fault e => .fault e
  | .refused e => .refused e

/-- A station operation run by the machine: nothing outside the station changes. -/
def onStation (s : State) (f : Station s.cfg → Result (Station s.cfg)) : Result State :=
  chain (f s.station) fun st => .next { s with station := st }

/-! ### The packet memories OUT and IN (R60 to R62) -/

/-- `MemRead(m, i)`: the packet last written to slot `i`; none for a slot never written (U6). No side effect. -/
def Memory.read {c : Config} (m : Memory c) (i : Slot c) : Option Packet := m.get i

/-- `MemWrite(m, i, p)`: the whole slot, length and bytes. -/
def Memory.write {c : Config} (m : Memory c) (i : Slot c) (p : Packet) : Memory c := m.set i.val (some p) i.isLt

/-- The form every memory keeps: a slot holds at most `PKT_MAX` bytes (R60). There is one way to write a memory down, so
equal memories are equal data. -/
def Memory.wf {c : Config} (m : Memory c) : Bool :=
  m.toList.all fun o => match o with
    | none => true
    | some p => packetOk c p

/-! ### Timers (R200 to R203) -/

/-- `StartDataTimer(s)` (R200): the three fields are overwritten, so whatever the timer held before is gone. -/
def startDataTimer {c : Config} (q : Seq c) (st : Station c) : Station c :=
  { st with dataTimer := st.dataTimer.set (seqSlot q).val ⟨true, q, c.dataTimerDuration⟩ (seqSlot q).isLt }

/-- `StopDataTimer(s)` (R201): only `armed` changes. -/
def stopDataTimer {c : Config} (q : Seq c) (st : Station c) : Station c :=
  { st with
    dataTimer := st.dataTimer.set (seqSlot q).val { st.dataTimer.get (seqSlot q) with armed := false } (seqSlot q).isLt }

/-- `StartAckTimer()` (R202; timers do not count here, notes/assumptions/13.md): reloaded whether or not it was armed (D12). -/
def startAckTimer {c : Config} (st : Station c) : Station c := { st with ackTimer := ⟨true, c.ackTimerDuration⟩ }

/-- `StopAckTimer()` (R203). -/
def stopAckTimer {c : Config} (st : Station c) : Station c :=
  { st with ackTimer := { st.ackTimer with armed := false } }

/-- Data timer `SLOT(s)` is armed and was started for `s`: `s` may expire (R204, R225). -/
def armedFor {c : Config} (q : Seq c) (st : Station c) : Bool :=
  (st.dataTimer.get (seqSlot q)).armed && decide ((st.dataTimer.get (seqSlot q)).seq = q)

/-! ### Outputs (R14) -/

/-- `Transmit(bytes)`: never blocks, never fails, whatever `ch_ready` (R72, R318). -/
def transmit {c : Config} (bs : Bytes) (st : Station c) : Station c := { st with outs := st.outs ++ [.transmit bs] }

/-- `Deliver(p)`: never blocks (R241). -/
def deliver {c : Config} (p : Packet) (st : Station c) : Station c := { st with outs := st.outs ++ [.deliver p] }

/-! ### Frames out (R140 to R142, R205) -/

/-- `PIGGYBACK() = PRED(frame_expected)` (R142). -/
def piggyback {c : Config} (st : Station c) : Seq c := seqPred st.frameExpected

/-- `BUILD(kind, seq)` (R140): none where a DATA frame's output slot was never written. -/
def build {c : Config} (kind : Kind) (q : Seq c) (st : Station c) : Option Frame :=
  match kind with
  | .data => (st.outBuf.read (seqSlot q)).map fun p => ⟨.data, zext8 (piggyback st), zext8 q, p⟩
  | .ack => some ⟨.ack, zext8 (piggyback st), 0, []⟩
  | .nak => some ⟨.nak, zext8 (piggyback st), 0, []⟩

/-- What every transmission of a frame of this kind does after it: a NAK clears `no_nak` (R141, R205). -/
def afterSend {c : Config} (kind : Kind) (st : Station c) : Station c :=
  match kind with
  | .data => st
  | .ack => st
  | .nak => clearNoNak st

/-- `SendFrame(kind, seq) = Transmit(SERIALIZE(BUILD(kind, seq)))` (R141, R205). -/
def sendFrame {c : Config} (kind : Kind) (q : Seq c) (st : Station c) : Result (Station c) :=
  match build kind q st with
  | none => .fault (.unwrittenOutSlot (seqSlot q).val)
  | some f => .next (afterSend kind (transmit (serializeFrame c f) st))

/-! ### The one error, and the end of a handler -/

/-- `CORRUPT_NAK()` (R207): all that a `CorruptionError` does, whatever its cause (R146, R250). This is the block's only
exception: it saves nothing and goes nowhere (R257). -/
def corruptNak {c : Config} (st : Station c) : Result (Station c) :=
  if st.noNak then sendFrame .nak 0 st else .next st

/-- The end of every handler: the gate is evaluated and the loop is back at the wait (R220, R230, R258). -/
def endHandler {c : Config} (r : Result (Station c)) : Result (Station c) := chain r fun st => .next (gate st)

end Sys2Proof.Machine
end

