-- ==== Sys2Proof/Machine/Codec.lean ====
section
/-! DEFINITION. The meanings of the Frame Codec rows (41_codec.md): each reads the station and answers a value; SendFrame
transmits. `VALIDATE`, `PARSE`, `Malformed` and `SERIALIZE` themselves stand in Decode.lean. -/

namespace Sys2Proof.Machine

/-- BUILD (R140): the frame is answered; a read of a slot never written is a fault (U6). -/
def execBuild (kind : Kind) (q : Byte) (s : State) : Result State :=
  withSeq s q fun k =>
    match build kind k s.station with
    | none => .fault (.unwrittenOutSlot (seqSlot k).val)
    | some f => answer s (.frame f)

/-- SERIALIZE (R141). -/
def execSerialize (f : Frame) (s : State) : Result State :=
  withFrame s f (answer s (.bytes (serializeFrame s.cfg f)))

/-- PIGGYBACK (R142). -/
def execPiggyback (s : State) : Result State := answer s (.num (zext8 (piggyback s.station)))

/-- VALIDATE (R143, R148): total, reads and writes no state. -/
def execValidate (input : Option Bytes) (s : State) : Result State :=
  answer s (checkedValue (validateInput s.cfg input))

/-- PARSE (R144): the residue is the caller's business (R143); a string shorter than `MIN_LEN` has no fields (DEDUCED,
notes/assumptions/11.md). -/
def execParse (bs : Bytes) (s : State) : Result State :=
  if s.cfg.minLen ≤ bs.length then answer s (checkedValue (parseFrame s.cfg bs)) else .refused .stringTooShort

/-- VALIDATE_MALFORMED: the test `Malformed(k, a, s, L)` (R145). -/
def execValidateMalformed (k a q : Byte) (len : Nat) (s : State) : Result State :=
  answer s (.bit (malformed s.cfg k a q len))

/-- SendFrame (R141, R205). -/
def execSendFrame (kind : Kind) (q : Byte) (s : State) : Result State :=
  withSeq s q fun k => onStation s (sendFrame kind k)

end Sys2Proof.Machine
end

