-- ==== Sys2Proof/Machine/Receiver.lean ====
section
/-! DEFINITION. The Receiver Window (43_receiver.md): the three steps of `ON_FRAME_DATA`, their composition, and the
meanings. -/

namespace Sys2Proof.Machine

/-! ### The operations -/

/-- Step 1: a NAK or the delayed ack (R180). -/
def onFrameDataStep1 {c : Config} (q : Seq c) (st : Station c) : Result (Station c) :=
  if q ≠ st.frameExpected ∧ st.noNak = true then sendFrame .nak 0 st else .next (startAckTimer st)

/-- Step 2: acceptance (R181). Outside the window, or with the slot already marked, nothing changes (R252). -/
def onFrameDataStep2 {c : Config} (q : Seq c) (p : Packet) (st : Station c) : Station c :=
  if seqBetween st.frameExpected q st.tooFar = true ∧ st.arrived.get (seqSlot q) = false then
    { st with
      arrived := st.arrived.set (seqSlot q).val true (seqSlot q).isLt
      inBuf := st.inBuf.write (seqSlot q) p }
  else st

/-- The body of the drain loop, for the packet `p` just read (R182). -/
def deliverExpected {c : Config} (p : Packet) (st : Station c) : Station c :=
  startAckTimer
    { deliver p st with
      arrived := st.arrived.set (seqSlot st.frameExpected).val false (seqSlot st.frameExpected).isLt
      noNak := true
      frameExpected := seqInc st.frameExpected
      tooFar := seqInc st.tooFar }

/-- The drain loop, at most `k` times round. Its condition is a test (R182, R316). -/
def drainLoop {c : Config} : Nat → Station c → Result (Station c)
  | 0, st => .next st
  | k + 1, st =>
    if st.arrived.get (seqSlot st.frameExpected) then
      match st.inBuf.read (seqSlot st.frameExpected) with
      | none => .fault (.unwrittenInSlot (seqSlot st.frameExpected).val)
      | some p => drainLoop k (deliverExpected p st)
    else .next st

/-- Step 3: the drain loop (R182). Every round clears an arrived bit and none is set, so `NR_BUFS` rounds are all the loop
can run (R182 corner case a) from any state. -/
def onFrameDataStep3 {c : Config} (st : Station c) : Result (Station c) := drainLoop c.nrBufs st

/-- `ON_FRAME_DATA(f)`: step 1, step 2, step 3 (R183). -/
def onFrameData {c : Config} (q : Seq c) (p : Packet) (st : Station c) : Result (Station c) :=
  chain (onFrameDataStep1 q st) fun st₁ => onFrameDataStep3 (onFrameDataStep2 q p st₁)

/-! ### The meanings -/

def execOnFrameDataStep1 (q : Byte) (s : State) : Result State :=
  withSeq s q fun k => onStation s (onFrameDataStep1 k)

def execOnFrameDataStep2 (q : Byte) (p : Packet) (s : State) : Result State :=
  withSeq s q fun k => withPacket s p (onStation s fun st => .next (onFrameDataStep2 k p st))

def execOnFrameDataStep3 (s : State) : Result State := onStation s onFrameDataStep3

/-- ON_FRAME_DATA: its operand is a frame of kind DATA (R180). -/
def execOnFrameData (f : Frame) (s : State) : Result State :=
  withFrame s f
    (match f.kind with
     | .data => onStation s (onFrameData (seqOf s.cfg f.seq) f.payload)
     | .ack => .refused .illFormedFrame
     | .nak => .refused .illFormedFrame)

end Sys2Proof.Machine
end

