-- ==== Sys2Proof/Machine/Sender.lean ====
section
/-! DEFINITION. The Sender Window (42_sender.md): the four operations on a station, and their meanings. -/

namespace Sys2Proof.Machine

/-! ### The operations -/

/-- `SUBMIT(p)` (R160). With `nbuffered = NR_BUFS` the call has no meaning (R160 corner case c, U2). -/
def submit {c : Config} (p : Packet) (st : Station c) : Result (Station c) :=
  if st.nbuffered.toNat < c.nrBufs then
    chain (sendFrame .data st.nextFrameToSend { st with outBuf := st.outBuf.write (seqSlot st.nextFrameToSend) p })
      fun st₁ => .next
        { startDataTimer st.nextFrameToSend st₁ with
          nextFrameToSend := seqInc st.nextFrameToSend
          nbuffered := st.nbuffered + 1 }
  else .refused .windowFull

/-- The body of the `ACK_PROGRESS` loop (R161). -/
def retireOldest {c : Config} (st : Station c) : Station c :=
  { stopDataTimer st.ackExpected st with
    nbuffered := st.nbuffered - 1
    ackExpected := seqInc st.ackExpected }

/-- The `ACK_PROGRESS` loop, at most `k` times round. -/
def ackLoop {c : Config} (a : Seq c) : Nat → Station c → Station c
  | 0, st => st
  | k + 1, st =>
    if seqBetween st.ackExpected a st.nextFrameToSend then ackLoop a k (retireOldest st) else st

/-- `ACK_PROGRESS(ack)` (R161). Every round brings `ack_expected` one nearer to `next_frame_to_send`, so `M` rounds are
more than the loop can run (R164) from any state. -/
def ackProgress {c : Config} (a : Seq c) (st : Station c) : Station c := ackLoop a c.M st

/-- `TIMEOUT_RESEND(s)` (R162), for a timer that is armed for `s` (its precondition; U4; DEDUCED,
notes/assumptions/10.md). -/
def timeoutResend {c : Config} (q : Seq c) (st : Station c) : Result (Station c) :=
  if armedFor q st then chain (sendFrame .data q st) fun st₁ => .next (startDataTimer q st₁)
  else .refused .staleDataTimeout

/-- `NAK_RESEND(ack)` (R163): the timer of the resent frame is restarted (D10). -/
def nakResend {c : Config} (a : Seq c) (st : Station c) : Result (Station c) :=
  if seqBetween st.ackExpected (seqInc a) st.nextFrameToSend then
    chain (sendFrame .data (seqInc a) st) fun st₁ => .next (startDataTimer (seqInc a) st₁)
  else .next st

/-! ### The meanings -/

/-- SUBMIT: like NEW_PACKET_READY, no step while `intake_en = 0` (U2, R313; DEDUCED, notes/assumptions/10.md). -/
def execSubmit (p : Packet) (s : State) : Result State :=
  withPacket s p (if s.station.intakeEn then onStation s (submit p) else .refused .intakeClosed)

def execAckProgress (a : Byte) (s : State) : Result State :=
  withSeq s a fun k => onStation s fun st => .next (ackProgress k st)

def execTimeoutResend (q : Byte) (s : State) : Result State :=
  withSeq s q fun k => onStation s (timeoutResend k)

def execNakResend (a : Byte) (s : State) : Result State :=
  withSeq s a fun k => onStation s (nakResend k)

end Sys2Proof.Machine
end

