-- ==== Sys2Proof/Machine/Events.lean ====
section
/-! DEFINITION. The Event Dispatch Loop (45_dispatch.md): the handler of each of the five events, whole, the gate at its
end included (R66, R220), the arrival of a validated frame, and the meanings of the event, frame and gate rows. -/

namespace Sys2Proof.Machine

/-! ### The handlers -/

/-- on NEW_PACKET_READY(p) (R222): taken only while `intake_en = 1` (U2); the producer's None changes nothing (D17). -/
def onNewPacketReady {c : Config} (packet : Option Packet) (st : Station c) : Result (Station c) :=
  if st.intakeEn then
    endHandler (match packet with
      | some p => submit p st
      | none => .next st)
  else .refused .intakeClosed

/-- on CHANNEL_READY (R223). -/
def onChannelReady {c : Config} (st : Station c) : Result (Station c) := endHandler (.next (setChReady st))

/-- What a validated frame does, by its kind (R224): `ACK_PROGRESS` for all three, last. -/
def receiveFrame {c : Config} (f : Frame) (st : Station c) : Result (Station c) :=
  chain
    (match f.kind with
      | .data => onFrameData (seqOf c f.seq) f.payload st
      | .nak => nakResend (seqOf c f.ack) st
      | .ack => .next st)
    fun st₁ => .next (ackProgress (seqOf c f.ack) st₁)

/-- on FRAME_ARRIVED(input) (R224): a `CorruptionError` excludes every other action (R146, R256). -/
def onFrameArrived {c : Config} (input : Option Bytes) (st : Station c) : Result (Station c) :=
  endHandler
    (match validateInput c input with
      | .corruptionError => corruptNak st
      | .frame f => receiveFrame f st)

/-- on DATA_TIMEOUT(s) (R225): the expiry of an armed timer; a stale one has no step (U4). -/
def onDataTimeout {c : Config} (q : Seq c) (st : Station c) : Result (Station c) := endHandler (timeoutResend q st)

/-- on ACK_TIMEOUT (R226): the expiry consumes the timer, then the pure ACK (D33). -/
def onAckTimeout {c : Config} (st : Station c) : Result (Station c) :=
  if st.ackTimer.armed then endHandler (sendFrame .ack 0 (stopAckTimer st)) else .refused .ackTimerDisarmed

/-! ### The meanings of the events -/

def execNewPacketReady (packet : Option Packet) (s : State) : Result State :=
  withPacket s (packet.getD []) (onStation s (onNewPacketReady packet))

def execChannelReady (s : State) : Result State := onStation s onChannelReady

def execFrameArrived (input : Option Bytes) (s : State) : Result State := onStation s (onFrameArrived input)

def execDataTimeout (q : Byte) (s : State) : Result State := withSeq s q fun k => onStation s (onDataTimeout k)

def execAckTimeout (s : State) : Result State := onStation s onAckTimeout

/-! ### The meanings of the frames: the arrival of a frame that validates (R97, R224; DEDUCED, notes/assumptions/12.md) -/

def execData (a q : Byte) (p : Packet) (s : State) : Result State :=
  withFrame s ⟨.data, a, q, p⟩ (onStation s fun st => endHandler (receiveFrame ⟨.data, a, q, p⟩ st))

def execAck (a q : Byte) (s : State) : Result State :=
  withFrame s ⟨.ack, a, q, []⟩ (onStation s fun st => endHandler (receiveFrame ⟨.ack, a, q, []⟩ st))

def execNak (a q : Byte) (s : State) : Result State :=
  withFrame s ⟨.nak, a, q, []⟩ (onStation s fun st => endHandler (receiveFrame ⟨.nak, a, q, []⟩ st))

/-! ### The meaning of the gate -/

def execGate (s : State) : Result State := onStation s fun st => .next (gate st)

end Sys2Proof.Machine
end

