-- ==== Sys2Proof/Machine/SeqUnit.lean ====
section
/-! DEFINITION. The meanings of the six Sequence Space rows (R100, R120 to R125): the unit's result is answered, nothing
else changes. -/

namespace Sys2Proof.Machine

def execInc (a : Byte) (s : State) : Result State :=
  withSeq s a fun k => answer s (.num (zext8 (seqInc k)))

def execPred (a : Byte) (s : State) : Result State :=
  withSeq s a fun k => answer s (.num (zext8 (seqPred k)))

def execAddw (a : Byte) (s : State) : Result State :=
  withSeq s a fun k => answer s (.num (zext8 (seqAddw k)))

def execSlot (a : Byte) (s : State) : Result State :=
  withSeq s a fun k => answer s (.num (slot8 (seqSlot k)))

def execDist (a b : Byte) (s : State) : Result State :=
  withSeq s a fun k => withSeq s b fun l => answer s (.num (zext8 (seqDist k l)))

def execBetween (a b d : Byte) (s : State) : Result State :=
  withSeq s a fun k => withSeq s b fun l => withSeq s d fun m => answer s (.bit (seqBetween k l m))

end Sys2Proof.Machine
end

