-- ==== Sys2Proof/Machine/Timers.lean ====
section
/-! DEFINITION. The meanings of the Retransmission and NAK Controller's rows (44_timers_nak.md). -/

namespace Sys2Proof.Machine

def execStartDataTimer (q : Byte) (s : State) : Result State :=
  withSeq s q fun k => onStation s fun st => .next (startDataTimer k st)

def execStopDataTimer (q : Byte) (s : State) : Result State :=
  withSeq s q fun k => onStation s fun st => .next (stopDataTimer k st)

def execStartAckTimer (s : State) : Result State := onStation s fun st => .next (startAckTimer st)

def execStopAckTimer (s : State) : Result State := onStation s fun st => .next (stopAckTimer st)

/-- SendFrame(NAK, 0), which clears `no_nak` (R205). -/
def execSendFrameNak (s : State) : Result State := onStation s (sendFrame .nak 0)

def execCorruptNak (s : State) : Result State := onStation s corruptNak

end Sys2Proof.Machine
end

