-- ==== Sys2Proof/Machine/Dispatch.lean ====
section
/-! DEFINITION. One arm per operation of the opcode table: the direct call of its meaning. -/

namespace Sys2Proof.Machine

def exec (i : Instr) (s : State) : Host.Outcome State Fault Refusal :=
  match i with
  | .data a q p => Sys2Proof.Machine.execData a q p s
  | .ack a q => Sys2Proof.Machine.execAck a q s
  | .nak a q => Sys2Proof.Machine.execNak a q s
  | .newPacketReady p => Sys2Proof.Machine.execNewPacketReady p s
  | .channelReady => Sys2Proof.Machine.execChannelReady s
  | .frameArrived b => Sys2Proof.Machine.execFrameArrived b s
  | .dataTimeout q => Sys2Proof.Machine.execDataTimeout q s
  | .ackTimeout => Sys2Proof.Machine.execAckTimeout s
  | .inc a => Sys2Proof.Machine.execInc a s
  | .pred a => Sys2Proof.Machine.execPred a s
  | .addw a => Sys2Proof.Machine.execAddw a s
  | .slot a => Sys2Proof.Machine.execSlot a s
  | .dist a b => Sys2Proof.Machine.execDist a b s
  | .between a b d => Sys2Proof.Machine.execBetween a b d s
  | .build k q => Sys2Proof.Machine.execBuild k q s
  | .serialize f => Sys2Proof.Machine.execSerialize f s
  | .piggyback => Sys2Proof.Machine.execPiggyback s
  | .validate b => Sys2Proof.Machine.execValidate b s
  | .parse b => Sys2Proof.Machine.execParse b s
  | .validateMalformed k a q l => Sys2Proof.Machine.execValidateMalformed k a q l s
  | .submit p => Sys2Proof.Machine.execSubmit p s
  | .ackProgress a => Sys2Proof.Machine.execAckProgress a s
  | .timeoutResend q => Sys2Proof.Machine.execTimeoutResend q s
  | .nakResend a => Sys2Proof.Machine.execNakResend a s
  | .onFrameDataStep1 q => Sys2Proof.Machine.execOnFrameDataStep1 q s
  | .onFrameDataStep2 q p => Sys2Proof.Machine.execOnFrameDataStep2 q p s
  | .onFrameDataStep3 => Sys2Proof.Machine.execOnFrameDataStep3 s
  | .onFrameData f => Sys2Proof.Machine.execOnFrameData f s
  | .startDataTimer q => Sys2Proof.Machine.execStartDataTimer q s
  | .stopDataTimer q => Sys2Proof.Machine.execStopDataTimer q s
  | .startAckTimer => Sys2Proof.Machine.execStartAckTimer s
  | .stopAckTimer => Sys2Proof.Machine.execStopAckTimer s
  | .sendFrame k q => Sys2Proof.Machine.execSendFrame k q s
  | .sendFrameNak => Sys2Proof.Machine.execSendFrameNak s
  | .corruptNak => Sys2Proof.Machine.execCorruptNak s
  | .gate => Sys2Proof.Machine.execGate s

end Sys2Proof.Machine
end

