-- ==== Sys2Proof/Machine/Step.lean ====
section
/-! DEFINITION. One step: one turn of the dispatch loop (R220). The station takes what is presented next, decodes it and
runs it whole (R66); with nothing presented it is idle at the wait and nothing changes (R21, R270). -/

namespace Sys2Proof.Machine

/-- What a decoded word does. A byte string on the channel port that does not validate is not an illegal instruction but
the block's one error: FRAME_ARRIVED takes the corruption path on it (R224, R250). -/
def runDecoded (p : Presented) (s : State) : Host.Outcome State Fault Refusal :=
  match decode s.cfg p with
  | .instr i => exec i s
  | .rejected .corruptFrame => exec (.frameArrived (some p.bytes)) s
  | .rejected why => .refused (.undecodable why)

/-- One step of the machine. -/
def step (s : State) : Host.Outcome State Fault Refusal :=
  match s.inbox with
  | [] => .next s
  | p :: rest => runDecoded p { s with inbox := rest }

/-- The table word `w` of `nbits` bits presented before all else (Decode.lean, `tableWord`). -/
def State.withFetchWord (s : State) (nbits w : Nat) : State :=
  { s with inbox := tableWord s.cfg nbits w :: s.inbox }

end Sys2Proof.Machine
end

