-- ==== Sys2Proof/Machine/Link.lean ====
section
/-! DEFINITION. The two-station link (60_exceptions.md R268, with the channel of R70 to R72 and the collaborators of R248):
two stations, each with its producer, its consumer and its outgoing channel. One move is one event at one end, or one
step of a channel. The stations share nothing but the two channels. Which move comes next is the environment's choice
(R256), so a run is a list of moves and a claim is about every list (DEDUCED, notes/assumptions/14.md). -/

namespace Sys2Proof.Machine

/-- One end of the link (R37, R268). -/
structure LinkEnd (c : Config) where
  station : Station c
  /-- The producer's packets still to offer (R240). -/
  supply : List Packet
  /-- The consumer's record (R241). -/
  got : List Packet
  /-- The outgoing channel, oldest first (R70): `none` is a damaged frame that will arrive as a corruption indication. -/
  wire : List (Option Bytes)
  deriving DecidableEq, Repr

/-- The link: both ends with the same parameters (R288). -/
structure Link where
  cfg : Config
  a : LinkEnd cfg
  b : LinkEnd cfg
  deriving DecidableEq, Repr

/-- The two ends. -/
inductive Side where
  | a
  | b
  deriving DecidableEq, Repr

/-- The moves of one end and of its outgoing channel (R248, R255, R268). -/
inductive LinkMove where
  /-- NEW_PACKET_READY: the producer's next packet is taken. -/
  | offer
  /-- NEW_PACKET_READY, the producer answering None. The event says that the producer has a packet (R99), so an end with
  nothing left to offer has no such move (R290). -/
  | offerNone
  | channelReady
  /-- FRAME_ARRIVED: the head of the peer's outgoing channel. -/
  | arrive
  | dataTimeout (q : Byte)
  | ackTimeout
  /-- The outgoing channel loses its head frame (R70 c). -/
  | lose
  /-- The outgoing channel damages its head frame: a corruption indication, or another byte string (R70 b). -/
  | damage (r : Option Bytes)
  deriving DecidableEq, Repr

/-- The byte strings transmitted, oldest first. -/
def transmitted (outs : List Output) : List Bytes :=
  outs.filterMap fun o => match o with
    | .transmit bs => some bs
    | .deliver _ => none
    | .intake _ => none

/-- The packets delivered, oldest first. -/
def delivered (outs : List Output) : List Packet :=
  outs.filterMap fun o => match o with
    | .transmit _ => none
    | .deliver p => some p
    | .intake _ => none

/-- A handler has ended: its transmissions enter the channel, its deliveries the consumer's record, in order (R67). -/
def LinkEnd.settle {c : Config} (e : LinkEnd c) (st : Station c) : LinkEnd c :=
  { e with
    station := { st with outs := [] }
    got := e.got ++ delivered st.outs
    wire := e.wire ++ (transmitted st.outs).map some }

/-- One move of the end `me`, whose peer is `peer`. -/
def endMove {c : Config} (m : LinkMove) (me peer : LinkEnd c) : Result (LinkEnd c × LinkEnd c) :=
  match m with
  | .offer =>
    match me.supply with
    | [] => .refused .noSuchMove
    | p :: rest =>
      if packetOk c p then
        chain (onNewPacketReady (some p) me.station) fun st => .next (LinkEnd.settle { me with supply := rest } st, peer)
      else .refused .packetTooLong
  | .offerNone =>
    match me.supply with
    | [] => .refused .noSuchMove
    | _ :: _ => chain (onNewPacketReady none me.station) fun st => .next (me.settle st, peer)
  | .channelReady => chain (onChannelReady me.station) fun st => .next (me.settle st, peer)
  | .arrive =>
    match peer.wire with
    | [] => .refused .noSuchMove
    | f :: rest => chain (onFrameArrived f me.station) fun st => .next (me.settle st, { peer with wire := rest })
  | .dataTimeout q =>
    if seqOk c q then chain (onDataTimeout (seqOf c q) me.station) fun st => .next (me.settle st, peer)
    else .refused .seqOutOfRange
  | .ackTimeout => chain (onAckTimeout me.station) fun st => .next (me.settle st, peer)
  | .lose =>
    match me.wire with
    | [] => .refused .noSuchMove
    | _ :: rest => .next ({ me with wire := rest }, peer)
  | .damage r =>
    match me.wire with
    | [] => .refused .noSuchMove
    | _ :: rest => .next ({ me with wire := r :: rest }, peer)

/-- One move of the link. -/
def linkMove (w : Side) (m : LinkMove) (l : Link) : Result Link :=
  match w with
  | .a => chain (endMove m l.a l.b) fun e => .next { cfg := l.cfg, a := e.1, b := e.2 }
  | .b => chain (endMove m l.b l.a) fun e => .next { cfg := l.cfg, a := e.2, b := e.1 }

/-- A run of the link: its moves, first to last. -/
def linkRun : List (Side × LinkMove) → Link → Result Link
  | [], l => .next l
  | (w, m) :: rest, l => chain (linkMove w m l) (linkRun rest)

/-- An end before its first event (R280, R288). -/
def LinkEnd.reset (c : Config) (supply : List Packet) : LinkEnd c := ⟨Station.reset c, supply, [], []⟩

/-- The link at its start: both stations reset together, both channels empty (R268, R288). -/
def linkReset (c : Config) (supplyA supplyB : List Packet) : Link :=
  ⟨c, LinkEnd.reset c supplyA, LinkEnd.reset c supplyB⟩

/-- `CHANNEL_DETECTS` for one move (R71): what a damaged frame is replaced by fails `VALIDATE`. An assumption on the
environment, so a hypothesis of the statements that need it; the model lets a channel present any byte string. -/
def LinkMove.detected (c : Config) : LinkMove → Prop
  | .damage r => validateInput c r = .corruptionError
  | .offer => True
  | .offerNone => True
  | .channelReady => True
  | .arrive => True
  | .dataTimeout _ => True
  | .ackTimeout => True
  | .lose => True

end Sys2Proof.Machine
end

