-- ==== Sys2Proof/Safety.lean ====
section
/-! DEFINITION. What counts as a good state and a good run, in the terms the statements use: the invariants between events
(70_reset_and_hazards.md R300 to R305), quiescence (R290), and the counts over the outputs that the whole-machine rules
speak of (R184, R206); for the link of two stations, the same in its own terms (R268). -/

namespace Sys2Proof.Machine

/-- `s` is outstanding: `BETWEEN(ack_expected, s, next_frame_to_send)` (00_scope.md section 6). -/
def outstanding {c : Config} (st : Station c) (q : Seq c) : Prop :=
  seqBetween st.ackExpected q st.nextFrameToSend = true

/-- The invariants between events. -/
structure Station.Inv {c : Config} (st : Station c) : Prop where
  /-- R300 -/
  occupancy : st.nbuffered = seqDist st.ackExpected st.nextFrameToSend
  /-- R300, R25 -/
  bounded : st.nbuffered.toNat ≤ c.nrBufs
  /-- R301 -/
  window : st.tooFar = seqAddw st.frameExpected
  /-- R302: the armed timers are those of the outstanding numbers' slots -/
  timersArmed : ∀ i : Slot c, (st.dataTimer.get i).armed = true ↔ ∃ q : Seq c, outstanding st q ∧ seqSlot q = i
  /-- R302: and each holds that number -/
  timersSeq : ∀ q : Seq c, outstanding st q → (st.dataTimer.get (seqSlot q)).seq = q
  /-- R303 -/
  expectedMissing : st.arrived.get (seqSlot st.frameExpected) = false
  /-- R304 (a) -/
  outWritten : ∀ q : Seq c, outstanding st q → (st.outBuf.read (seqSlot q)).isSome = true
  /-- R304 (b) -/
  inWritten : ∀ i : Slot c, st.arrived.get i = true → (st.inBuf.read i).isSome = true
  /-- R305 -/
  gateLevel : st.intakeEn = gateOpen st
  /-- R26, R60 -/
  outFits : st.outBuf.wf = true
  /-- R31, R60 -/
  inFits : st.inBuf.wf = true

/-- The machine's invariant: its station's. -/
def State.Inv (s : State) : Prop := s.station.Inv

/-- Quiescent (R290). -/
def Station.quiescent {c : Config} (st : Station c) : Prop :=
  st.nbuffered = 0 ∧ (∀ i : Slot c, (st.dataTimer.get i).armed = false) ∧ st.ackTimer.armed = false ∧
    ∀ i : Slot c, st.arrived.get i = false

/-- The kind byte of a transmission is that of `k`. -/
def Output.isFrameOf (k : Kind) : Output → Bool
  | .transmit bs => bs.head? == some (kindCode k)
  | .deliver _ => false
  | .intake _ => false

/-- How many NAK frames were transmitted. -/
def nakCount (outs : List Output) : Nat := outs.countP (Output.isFrameOf .nak)

/-- How many packets were delivered. -/
def deliverCount (outs : List Output) : Nat := (delivered outs).length

/-- At most one NAK for each delivery, one more while none is outstanding (R33, R206): `no_nak = 1` keeps the right to
send one. -/
def State.NakInv (s : State) : Prop :=
  nakCount s.station.outs + (if s.station.noNak then 1 else 0) ≤ deliverCount s.station.outs + 1

/-- `frame_expected` counts the deliveries modulo `M` (R184). -/
def State.DeliveryInv (s : State) : Prop :=
  s.station.frameExpected.toNat = deliverCount s.station.outs % s.cfg.M

/-- The `ack` byte of whatever the station transmits now, by the formula of R94 and R142:
`(frame_expected + MAX_SEQ) mod (MAX_SEQ+1)`. -/
def ackByte {c : Config} (st : Station c) : Byte :=
  BitVec.ofNat 8 ((st.frameExpected.toNat + c.maxSeq) % (c.maxSeq + 1))

/-- Every slot whose arrived bit is set has been written (R30: the bit says that the slot holds a payload). -/
def arrivedWritten {c : Config} (st : Station c) : Prop :=
  ∀ i : Slot c, st.arrived.get i = true → (st.inBuf.read i).isSome = true

/-! ### The link (R268) -/

/-- Quiescent link (R290): both stations are, both channels are empty, and both producers have nothing left to offer. -/
def Link.quiescent (l : Link) : Prop :=
  l.a.station.quiescent ∧ l.b.station.quiescent ∧ l.a.wire = [] ∧ l.b.wire = [] ∧ l.a.supply = [] ∧ l.b.supply = []

/-- Both stations of the link satisfy the invariants between events. -/
def Link.StationsInv (l : Link) : Prop := l.a.station.Inv ∧ l.b.station.Inv

/-- The frames among the strings of a channel, oldest first: a string that fails `VALIDATE` is none. -/
def validFrames (c : Config) (wire : List (Option Bytes)) : List Frame :=
  wire.filterMap fun r => match validateInput c r with
    | .frame f => some f
    | .corruptionError => none

/-- The DATA frames of a channel, oldest first. -/
def dataFrames (c : Config) (wire : List (Option Bytes)) : List Frame :=
  (validFrames c wire).filter fun f => decide (f.kind = .data)

/-- The slot of the `k`-th packet, counting from 0 (R61, R79). -/
def slotOfNth (c : Config) (k : Nat) : Slot c := seqSlot (BitVec.ofNat c.n k)

/-- The packets that flow from the end `x` to the end `y`, counted from 0 without wrapping (R79, R184). `taken` are those
`x` has taken from its producer, out of `supply`; `sent` are the numbers of the DATA frames in the channel of `x`, and
`acked` the counts that the frames in the channel of `y` acknowledge, oldest first. -/
structure Flow {c : Config} (supply taken : List Packet) (sent acked : List Nat) (x y : LinkEnd c) : Prop where
  /-- The producer's packets are taken from the front. -/
  offered : supply = taken ++ x.supply
  buffered : x.station.nbuffered.toNat ≤ taken.length
  /-- The sender's window is `[taken − nbuffered, taken)`. -/
  upper : x.station.nextFrameToSend.toNat = taken.length % c.M
  lower : x.station.ackExpected.toNat = (taken.length - x.station.nbuffered.toNat) % c.M
  /-- What the consumer has is what was taken, in order, from the first. -/
  inOrder : y.got = taken.take y.got.length
  /-- The receiver's window starts at the number of deliveries, inside the sender's window or at its end. -/
  expected : y.station.frameExpected.toNat = y.got.length % c.M
  notBehind : taken.length ≤ y.got.length + x.station.nbuffered.toNat
  /-- An outstanding packet is in its output slot. -/
  held : ∀ k < taken.length, taken.length ≤ k + x.station.nbuffered.toNat →
    x.station.outBuf.read (slotOfNth c k) = taken[k]?
  /-- A marked input slot holds the packet of its number. -/
  stored : ∀ j < c.nrBufs, y.station.arrived.get (slotOfNth c (y.got.length + j)) = true →
    y.got.length + j < taken.length ∧ y.station.inBuf.read (slotOfNth c (y.got.length + j)) = taken[y.got.length + j]?
  /-- Every DATA frame in the channel carries the packet of its number. -/
  carried : List.Forall₂ (fun f k => f.seq.toNat = k % c.M ∧ taken[k]? = some f.payload) (dataFrames c x.wire) sent
  /-- No frame in the channel is `NR_BUFS` or more behind one before it, or behind one delivered or stored (R73, R310). -/
  fresh : sent.Pairwise fun j k => j < k + c.nrBufs
  freshForReceiver : ∀ k ∈ sent, y.got.length ≤ k + c.nrBufs ∧
    ∀ j < c.nrBufs, y.station.arrived.get (slotOfNth c (y.got.length + j)) = true → y.got.length + j < k + c.nrBufs
  /-- Every frame in the other channel acknowledges a count of deliveries, none less than one before it (R94, R142). -/
  acknowledged : List.Forall₂ (fun f v => f.ack.toNat = (v + c.maxSeq) % c.M) (validFrames c y.wire) acked
  ackOrder : acked.Pairwise (· ≤ ·)
  ackRange : ∀ v ∈ acked, taken.length ≤ v + x.station.nbuffered.toNat ∧ v ≤ y.got.length

/-- The invariant of a link whose producers were given `supplyA` and `supplyB`: both stations satisfy theirs, nothing is
left in them to hand over, and the packets flow both ways. -/
def Link.Inv (l : Link) (supplyA supplyB : List Packet) : Prop :=
  l.StationsInv ∧ l.a.station.outs = [] ∧ l.b.station.outs = [] ∧
    (∃ taken sent acked, Flow supplyA taken sent acked l.a l.b) ∧ ∃ taken sent acked, Flow supplyB taken sent acked l.b l.a

end Sys2Proof.Machine
end

