-- ==== Sys2Proof/Certificates/Slice0/Obligations.lean ====
section
/-! DEFINITION. The statements for the provers. They hold for every instance (`s.cfg` is any `Config`), and they say
register values with the word type's own wrapping arithmetic and with natural numbers, not with the model's Sequence
Space functions, wherever a rule gives a formula. -/

open Sys2Proof Sys2Proof.Machine

/-! ### Sequence Space (40_seqspace.md) -/

/-- R120 to R124: INC, PRED, ADDW, SLOT and DIST run on every in-range operand, answer the rule's formula, and change
nothing else. -/
def Obligations.SequenceUnitAnswersItsFormulas : Prop :=
  ∀ (s : State) (a b : Byte), a.toNat ≤ s.cfg.maxSeq → b.toNat ≤ s.cfg.maxSeq →
    exec (.inc a) s = .next { s with ret := .num (BitVec.ofNat 8 ((a.toNat + 1) % s.cfg.M)) } ∧
    exec (.pred a) s = .next { s with ret := .num (BitVec.ofNat 8 ((a.toNat + s.cfg.maxSeq) % s.cfg.M)) } ∧
    exec (.addw a) s = .next { s with ret := .num (BitVec.ofNat 8 ((a.toNat + s.cfg.nrBufs) % s.cfg.M)) } ∧
    exec (.slot a) s = .next { s with ret := .num (BitVec.ofNat 8 (a.toNat % s.cfg.nrBufs)) } ∧
    exec (.dist a b) s = .next { s with ret := .num (BitVec.ofNat 8 ((b.toNat + s.cfg.M - a.toNat) % s.cfg.M)) }

/-- R125, R126: BETWEEN answers the three orderings of the unsigned operands, and changes nothing else; the three orderings
are the distance form, `DIST(a, b) < DIST(a, c)`. -/
def Obligations.BetweenAnswersTheThreeOrderings : Prop :=
  ∀ (s : State) (a b d : Byte), a.toNat ≤ s.cfg.maxSeq → b.toNat ≤ s.cfg.maxSeq → d.toNat ≤ s.cfg.maxSeq →
    exec (.between a b d) s = .next { s with ret := .bit (decide
      ((a.toNat ≤ b.toNat ∧ b.toNat < d.toNat) ∨ (d.toNat < a.toNat ∧ a.toNat ≤ b.toNat) ∨
        (b.toNat < d.toNat ∧ d.toNat < a.toNat))) } ∧
    (((a.toNat ≤ b.toNat ∧ b.toNat < d.toNat) ∨ (d.toNat < a.toNat ∧ a.toNat ≤ b.toNat) ∨
        (b.toNat < d.toNat ∧ d.toNat < a.toNat)) ↔
      (b.toNat + s.cfg.M - a.toNat) % s.cfg.M < (d.toNat + s.cfg.M - a.toNat) % s.cfg.M)

/-- R127, laws 1, 4, 5, 6, 7. -/
def Obligations.BetweenRotatesAdvancesAndSplits : Prop :=
  ∀ (c : Config) (a b d k : Seq c),
    seqBetween (a + k) (b + k) (d + k) = seqBetween a b d ∧
    (seqBetween a b d = true → (seqBetween (a + 1) b d = true ↔ b ≠ a)) ∧
    (a ≠ d → seqBetween d b a = !seqBetween a b d) ∧
    seqBetween a b a = false ∧
    (seqBetween a b d = true → (seqDist a b).toNat + (seqDist b d).toNat = (seqDist a d).toNat) ∧
    (seqBetween a b (seqAddw a) = true ↔ (b - a).toNat < c.nrBufs) ∧
    (seqBetween a b (seqAddw a) = true ↔ (b - a).getLsbD (c.n - 1) = false)

/-- R127, laws 2 and 3: how many numbers an interval holds, and how many tuples are true. -/
def Obligations.BetweenCounts : Prop :=
  ∀ (c : Config),
    (∀ a d : Seq c, ((List.range c.M).countP fun b => seqBetween a (BitVec.ofNat c.n b) d) = (d - a).toNat) ∧
    2 * ((List.range c.M).map fun a => ((List.range c.M).map fun d => (List.range c.M).countP fun b =>
      seqBetween (BitVec.ofNat c.n a) (BitVec.ofNat c.n b) (BitVec.ofNat c.n d)).sum).sum = c.M * c.M * (c.M - 1)

/-- R128: the laws of the unary functions. -/
def Obligations.UnaryFunctionLaws : Prop :=
  ∀ (c : Config) (k a b : Seq c),
    seqInc^[c.M] k = k ∧ seqPred (seqInc k) = k ∧ seqInc (seqPred k) = k ∧ seqAddw (seqAddw k) = k ∧
    seqInc^[c.nrBufs] k = seqAddw k ∧ seqSlot (seqAddw k) = seqSlot k ∧
    (seqSlot (seqInc k)).val = ((seqSlot k).val + 1) % c.nrBufs ∧
    (seqDist a (seqInc b)).toNat = ((seqDist a b).toNat + 1) % c.M ∧
    (seqDist (seqInc a) b).toNat = ((seqDist a b).toNat + c.M - 1) % c.M

/-- R63: no two live sequence numbers share a slot: among `NR_BUFS` consecutive numbers, so among the outstanding and
among the acceptable ones. -/
def Obligations.LiveNumbersHaveDistinctSlots : Prop :=
  ∀ (c : Config) (a q r : Seq c), seqSlot q = seqSlot r →
    ((q - a).toNat < c.nrBufs → (r - a).toNat < c.nrBufs → q = r) ∧
    (∀ st : Station c, st.Inv → outstanding st q → outstanding st r → q = r) ∧
    (∀ st : Station c, st.Inv → seqBetween st.frameExpected q st.tooFar = true →
      seqBetween st.frameExpected r st.tooFar = true → q = r)

/-! ### Memories (20_memory.md) -/

/-- R62: a read returns the packet last written to the slot, and a write changes no other slot. -/
def Obligations.SlotReadAfterWrite : Prop :=
  ∀ (c : Config) (m : Memory c) (i j : Slot c) (p : Packet),
    (m.write i p).read i = some p ∧ (j ≠ i → (m.write i p).read j = m.read j) ∧
    (m.wf = true → p.length ≤ c.pktMax → (m.write i p).wf = true)

/-! ### Frame Codec (30_encoding.md, 41_codec.md) -/

/-- R140, R142: BUILD answers the frame of its kind with the current piggyback value, for DATA the packet of the output slot,
for ACK and NAK `seq` 0 and no payload; it writes nothing. The piggyback value is one behind the next frame expected, and its
successor recovers `frame_expected`. -/
def Obligations.BuildAnswersTheFrame : Prop :=
  ∀ (s : State) (q : Byte), q.toNat ≤ s.cfg.maxSeq →
    exec .piggyback s = .next { s with ret := .num (ackByte s.station) } ∧
    seqInc (BitVec.ofNat s.cfg.n (ackByte s.station).toNat) = s.station.frameExpected ∧
    exec (.build .ack q) s = .next { s with ret := .frame ⟨.ack, ackByte s.station, 0, []⟩ } ∧
    exec (.build .nak q) s = .next { s with ret := .frame ⟨.nak, ackByte s.station, 0, []⟩ } ∧
    (∀ p, s.station.outBuf.read (seqSlot (BitVec.ofNat s.cfg.n q.toNat)) = some p →
      exec (.build .data q) s = .next { s with ret := .frame ⟨.data, ackByte s.station, q, p⟩ })

/-- R141: SERIALIZE lays out kind code, ack, seq, payload, and attaches the checksum of all of them last; the length is
`3 + len(payload) + CK_LEN`. -/
def Obligations.SerializeLaysOutAndChecksums : Prop :=
  ∀ (s : State) (a q : Byte) (p : Packet), a.toNat ≤ s.cfg.maxSeq → q.toNat ≤ s.cfg.maxSeq → p.length ≤ s.cfg.pktMax →
    exec (.serialize ⟨.data, a, q, p⟩) s
      = .next { s with ret := .bytes (0x01 :: a :: q :: p ++ s.cfg.ck (0x01 :: a :: q :: p)) } ∧
    exec (.serialize ⟨.ack, a, q, []⟩) s = .next { s with ret := .bytes ([0x02, a, q] ++ s.cfg.ck [0x02, a, q]) } ∧
    exec (.serialize ⟨.nak, a, q, []⟩) s = .next { s with ret := .bytes ([0x03, a, q] ++ s.cfg.ck [0x03, a, q]) } ∧
    (0x01 :: a :: q :: p ++ s.cfg.ck (0x01 :: a :: q :: p)).length = 3 + p.length + s.cfg.ckLen

/-- R143, R148: VALIDATE runs on every input; a corruption indication, a string under `MIN_LEN` and a nonzero residue give
the one error; any other string is what PARSE makes of it; nothing but the answer changes. -/
def Obligations.ValidateTestsLengthAndResidue : Prop :=
  ∀ (s : State) (bs : Bytes),
    (∃ v : Value, exec (.validate (some bs)) s = .next { s with ret := v }) ∧
    exec (.validate none) s = .next { s with ret := .corruptionError } ∧
    (bs.length < s.cfg.minLen ∨ s.cfg.residue bs ≠ 0 →
      exec (.validate (some bs)) s = .next { s with ret := .corruptionError }) ∧
    (s.cfg.minLen ≤ bs.length → s.cfg.residue bs = 0 → exec (.validate (some bs)) s = exec (.parse bs) s)

/-- R144, with the layout of R91: PARSE extracts kind, ack, seq and the bytes between the header and the last `CK_LEN`
bytes, and answers the error exactly where `Malformed` holds. R144 reaches PARSE with strings of residue zero; that it does
the same whatever the residue is the model's choice (DEDUCED, notes/assumptions/11.md). -/
def Obligations.ParseExtractsTheFields : Prop :=
  ∀ (s : State) (k a q : Byte) (p tail : Bytes), tail.length = s.cfg.ckLen →
    (malformed s.cfg k a q (s.cfg.minLen + p.length) = true →
      exec (.parse (k :: a :: q :: (p ++ tail))) s = .next { s with ret := .corruptionError }) ∧
    (malformed s.cfg k a q (s.cfg.minLen + p.length) = false →
      ∃ kind : Kind, kindCode kind = k ∧
        exec (.parse (k :: a :: q :: (p ++ tail))) s = .next { s with ret := .frame ⟨kind, a, q, p⟩ })

/-- The five conditions of R145 are what VALIDATE_MALFORMED answers. That the row answers a truth value is the model's
reading (DEDUCED, notes/assumptions/11.md). -/
def Obligations.MalformedIsTheFiveConditions : Prop :=
  ∀ (s : State) (k a q : Byte) (len : Nat),
    exec (.validateMalformed k a q len) s = .next { s with ret := .bit (decide
      ((k ≠ 0x01 ∧ k ≠ 0x02 ∧ k ≠ 0x03) ∨ a.toNat > s.cfg.maxSeq ∨ q.toNat > s.cfg.maxSeq ∨
        ((k = 0x02 ∨ k = 0x03) ∧ len ≠ 3 + s.cfg.ckLen) ∨
        (k = 0x01 ∧ len > 3 + s.cfg.pktMax + s.cfg.ckLen))) }

/-- R147: the round trip of the codec needs `CK_SOUND` and nothing else of the checksum. -/
def Obligations.ValidateOfSerializeIsTheFrame : Prop :=
  ∀ (c : Config) (f : Frame), c.CkSound → f.ack.toNat ≤ c.maxSeq → f.seq.toNat ≤ c.maxSeq →
    f.payload.length ≤ c.pktMax → (f.kind ≠ .data → f.payload = []) →
    validateInput c (some (serializeFrame c f)) = .frame f

/-- R91, R98 to R100, the other way round, at every port. What the channel port decodes to an operation is a frame of the
layout, with in-range fields, a zero residue and a length its kind allows: the encoding of that operation, but for the
checksum bytes, which R147 does not make unique. What the event and the select port decode is well formed, and the bytes are
its encoding. There is no sixth event, and no seventh select: a reserved code decodes to nothing, whatever follows it. The
byte form of event payloads and select operands is the model's (DESIGN CHOICE, notes/assumptions/3.md). -/
def Obligations.PortsDecodeOnlyEncodings : Prop :=
  ∀ c : Config,
    (∀ (bs : Bytes) (i : Instr), decode c ⟨.channel, bs⟩ = .instr i →
      c.residue bs = 0 ∧ i.wf c = true ∧
      (∃ body tail : Bytes, bs = body ++ tail ∧ tail.length = c.ckLen ∧
        encode c i = some ⟨.channel, body ++ c.ck body⟩) ∧
      ∃ a q : Byte, ∃ p tail : Bytes, tail.length = c.ckLen ∧
        ((bs = 0x01 :: a :: q :: (p ++ tail) ∧ i = .data a q p) ∨
          (bs = 0x02 :: a :: q :: tail ∧ i = .ack a q) ∨ (bs = 0x03 :: a :: q :: tail ∧ i = .nak a q))) ∧
    (∀ (w : Presented) (i : Instr), w.port ≠ .channel → decode c w = .instr i → i.wf c = true ∧ encode c i = some w) ∧
    (∀ (b : Byte) (rest : Bytes), 5 ≤ b.toNat → decode c ⟨.event, b :: rest⟩ = .rejected .reservedEventCode) ∧
    (∀ (b : Byte) (rest : Bytes), 6 ≤ b.toNat → decode c ⟨.select, b :: rest⟩ = .rejected .reservedSelect)

/-- Decode and encode agree, for every well-formed operation that has an encoding (R97, R99, R100). -/
def Obligations.DecodeOfEncodeIsTheOperation : Prop :=
  ∀ (c : Config) (i : Instr) (w : Presented), c.CkSound → i.wf c = true → encode c i = some w → decode c w = .instr i

/-- Sanity: frames written out from R97, and the codes of R99 and R100, decode to the operations they stand for. That a code
stands in a byte, with operand bytes after it, is the model's form (DESIGN CHOICE, notes/assumptions/3.md). -/
def Obligations.SpecWordsDecode : Prop :=
  decode Config.reference ⟨.channel, [0x02, 0x05, 0x00, 0x07]⟩ = .instr (.ack 5 0) ∧
  decode Config.reference ⟨.channel, [0x01, 0x07, 0x00, 0x50, 0x30, 0x66]⟩ = .instr (.data 7 0 [0x50, 0x30]) ∧
  decode Config.reference ⟨.event, [0x01]⟩ = .instr .channelReady ∧
  decode Config.reference ⟨.event, [0x04]⟩ = .instr .ackTimeout ∧
  decode Config.reference ⟨.select, [0b101, 6, 7, 1]⟩ = .instr (.between 6 7 1)

/-! ### Sender Window (42_sender.md) -/

/-- R160: SUBMIT stores the packet in its slot, transmits the DATA frame with the current piggyback value, arms the timer
with the number, and advances; nothing else changes. -/
def Obligations.SubmitStoresSendsAndArms : Prop :=
  ∀ (s : State) (p : Packet), p.length ≤ s.cfg.pktMax → s.station.intakeEn = true →
    s.station.nbuffered.toNat < s.cfg.nrBufs →
    exec (.submit p) s = .next { s with station := { s.station with
      outBuf := s.station.outBuf.write (seqSlot s.station.nextFrameToSend) p
      outs := s.station.outs ++ [.transmit (serializeFrame s.cfg
        ⟨.data, ackByte s.station, s.station.nextFrameToSend.setWidth 8, p⟩)]
      dataTimer := s.station.dataTimer.set (seqSlot s.station.nextFrameToSend).val
        ⟨true, s.station.nextFrameToSend, s.cfg.dataTimerDuration⟩ (seqSlot s.station.nextFrameToSend).isLt
      nextFrameToSend := s.station.nextFrameToSend + 1
      nbuffered := s.station.nbuffered + 1 } }

/-- R161, R164: with `d` and `w` the distances of `ack` and of `next_frame_to_send` from `ack_expected`, ACK_PROGRESS
changes nothing if `d ≥ w`; if `d < w` it retires `d + 1` frames: `ack_expected` is one past `ack`, `nbuffered` is down by
`d + 1`, the timers of the retired numbers' slots are disarmed, and nothing else changes. -/
def Obligations.AckProgressRetiresUpToAck : Prop :=
  ∀ (s : State) (a : Byte), a.toNat ≤ s.cfg.maxSeq →
    ((s.station.nextFrameToSend - s.station.ackExpected).toNat
        ≤ (BitVec.ofNat s.cfg.n a.toNat - s.station.ackExpected).toNat →
      exec (.ackProgress a) s = .next s) ∧
    ((BitVec.ofNat s.cfg.n a.toNat - s.station.ackExpected).toNat
        < (s.station.nextFrameToSend - s.station.ackExpected).toNat →
      ∃ dt : Vector (DataTimer s.cfg) s.cfg.nrBufs,
        (∀ i : Slot s.cfg, (dt.get i).seq = (s.station.dataTimer.get i).seq ∧
          (dt.get i).remaining = (s.station.dataTimer.get i).remaining ∧
          ((dt.get i).armed = true ↔ (s.station.dataTimer.get i).armed = true ∧
            ∀ j : Nat, j ≤ (BitVec.ofNat s.cfg.n a.toNat - s.station.ackExpected).toNat →
              seqSlot (s.station.ackExpected + BitVec.ofNat s.cfg.n j) ≠ i)) ∧
        exec (.ackProgress a) s = .next { s with station := { s.station with
          ackExpected := BitVec.ofNat s.cfg.n a.toNat + 1
          nbuffered := s.station.nbuffered - (BitVec.ofNat s.cfg.n a.toNat - s.station.ackExpected + 1)
          dataTimer := dt } })

/-- R162: TIMEOUT_RESEND, for a timer armed for `s`, transmits exactly the frame `s` again, with the current piggyback
value and the packet of its slot, and restarts its timer; nothing else changes. -/
def Obligations.TimeoutResendsOneFrame : Prop :=
  ∀ (s : State) (q : Byte) (p : Packet), q.toNat ≤ s.cfg.maxSeq →
    let k : Seq s.cfg := BitVec.ofNat s.cfg.n q.toNat
    (s.station.dataTimer.get (seqSlot k)).armed = true → (s.station.dataTimer.get (seqSlot k)).seq = k →
    s.station.outBuf.read (seqSlot k) = some p →
    exec (.timeoutResend q) s = .next { s with station := { s.station with
      outs := s.station.outs ++ [.transmit (serializeFrame s.cfg ⟨.data, ackByte s.station, q, p⟩)]
      dataTimer := s.station.dataTimer.set (seqSlot k).val ⟨true, k, s.cfg.dataTimerDuration⟩ (seqSlot k).isLt } }

/-- R163: NAK_RESEND resends the frame `ack + 1` and restarts its timer (the spec's decision D10) if that number is
outstanding; otherwise nothing changes. -/
def Obligations.NakResendsTheSuccessor : Prop :=
  ∀ (s : State) (a : Byte), a.toNat ≤ s.cfg.maxSeq →
    let t : Seq s.cfg := BitVec.ofNat s.cfg.n (a.toNat + 1)
    (∀ p, seqBetween s.station.ackExpected t s.station.nextFrameToSend = true →
      s.station.outBuf.read (seqSlot t) = some p →
      exec (.nakResend a) s = .next { s with station := { s.station with
        outs := s.station.outs ++ [.transmit (serializeFrame s.cfg ⟨.data, ackByte s.station, t.setWidth 8, p⟩)]
        dataTimer := s.station.dataTimer.set (seqSlot t).val ⟨true, t, s.cfg.dataTimerDuration⟩ (seqSlot t).isLt } }) ∧
    (seqBetween s.station.ackExpected t s.station.nextFrameToSend = false → exec (.nakResend a) s = .next s)

/-- R165: for one NAK frame the order of NAK_RESEND and ACK_PROGRESS does not matter. -/
def Obligations.NakResendAndAckProgressCommute : Prop :=
  ∀ (s : State) (a : Byte), s.Inv → a.toNat ≤ s.cfg.maxSeq →
    chain (exec (.nakResend a) s) (exec (.ackProgress a)) = chain (exec (.ackProgress a) s) (exec (.nakResend a))

/-! ### Receiver Window (43_receiver.md) -/

/-- R180: step 1 sends a NAK, which clears `no_nak`, exactly for a number other than `frame_expected` while `no_nak = 1`;
otherwise it starts the ack timer. Nothing else changes. -/
def Obligations.StepOneNaksOrArmsTheAckTimer : Prop :=
  ∀ (s : State) (q : Byte), q.toNat ≤ s.cfg.maxSeq →
    (q.toNat ≠ s.station.frameExpected.toNat ∧ s.station.noNak = true →
      exec (.onFrameDataStep1 q) s = .next { s with station := { s.station with
        noNak := false
        outs := s.station.outs ++ [.transmit (serializeFrame s.cfg ⟨.nak, ackByte s.station, 0, []⟩)] } }) ∧
    (¬(q.toNat ≠ s.station.frameExpected.toNat ∧ s.station.noNak = true) →
      exec (.onFrameDataStep1 q) s = .next { s with station := { s.station with
        ackTimer := ⟨true, s.cfg.ackTimerDuration⟩ } })

/-- R181: step 2 stores an acceptable frame whose slot is not marked, and marks the slot; any other frame changes nothing. -/
def Obligations.StepTwoStoresWhatIsAcceptable : Prop :=
  ∀ (s : State) (q : Byte) (p : Packet), q.toNat ≤ s.cfg.maxSeq → p.length ≤ s.cfg.pktMax →
    let k : Seq s.cfg := BitVec.ofNat s.cfg.n q.toNat
    (seqBetween s.station.frameExpected k s.station.tooFar = true ∧ s.station.arrived.get (seqSlot k) = false →
      exec (.onFrameDataStep2 q p) s = .next { s with station := { s.station with
        arrived := s.station.arrived.set (seqSlot k).val true (seqSlot k).isLt
        inBuf := s.station.inBuf.write (seqSlot k) p } }) ∧
    (¬(seqBetween s.station.frameExpected k s.station.tooFar = true ∧ s.station.arrived.get (seqSlot k) = false) →
      exec (.onFrameDataStep2 q p) s = .next s)

/-- R182: the drain loop delivers, in order, the packets of the marked slots from `frame_expected` on up to the first
unmarked one, at most `NR_BUFS`; it clears their bits, advances both edges by their number, sets `no_nak` and starts the ack
timer if there was one, and changes nothing else. -/
def Obligations.DrainDeliversTheRunInOrder : Prop :=
  ∀ s : State, arrivedWritten s.station →
    ∃ (ps : List Packet) (arr : Vector Bool s.cfg.nrBufs),
      ps.length ≤ s.cfg.nrBufs ∧
      (∀ (j : Nat) (h : j < ps.length),
        s.station.arrived.get (seqSlot (s.station.frameExpected + BitVec.ofNat s.cfg.n j)) = true ∧
        s.station.inBuf.read (seqSlot (s.station.frameExpected + BitVec.ofNat s.cfg.n j)) = some ps[j]) ∧
      arr.get (seqSlot (s.station.frameExpected + BitVec.ofNat s.cfg.n ps.length)) = false ∧
      (∀ i : Slot s.cfg, arr.get i = true ↔ s.station.arrived.get i = true ∧
        ∀ j < ps.length, seqSlot (s.station.frameExpected + BitVec.ofNat s.cfg.n j) ≠ i) ∧
      exec .onFrameDataStep3 s = .next { s with station := { s.station with
        outs := s.station.outs ++ ps.map .deliver
        arrived := arr
        noNak := s.station.noNak || !ps.isEmpty
        frameExpected := s.station.frameExpected + BitVec.ofNat s.cfg.n ps.length
        tooFar := s.station.tooFar + BitVec.ofNat s.cfg.n ps.length
        ackTimer := if ps.isEmpty then s.station.ackTimer else ⟨true, s.cfg.ackTimerDuration⟩ } }

/-- R183: ON_FRAME_DATA is its three steps in order, and completes wherever the marked slots are written; an in-order frame
transmits nothing. -/
def Obligations.OnFrameDataIsItsThreeSteps : Prop :=
  ∀ (s : State) (a q : Byte) (p : Packet), a.toNat ≤ s.cfg.maxSeq → q.toNat ≤ s.cfg.maxSeq → p.length ≤ s.cfg.pktMax →
    exec (.onFrameData ⟨.data, a, q, p⟩) s
      = chain (exec (.onFrameDataStep1 q) s) (fun t => chain (exec (.onFrameDataStep2 q p) t) (exec .onFrameDataStep3)) ∧
    (arrivedWritten s.station → ∃ t, exec (.onFrameData ⟨.data, a, q, p⟩) s = .next t ∧
      (q.toNat = s.station.frameExpected.toNat → transmitted t.station.outs = transmitted s.station.outs))

/-- R73: a copy of a frame delivered within the last `NR_BUFS` deliveries is not accepted. -/
def Obligations.DeliveredDuplicateIsIgnored : Prop :=
  ∀ (s : State) (q : Byte) (p : Packet), q.toNat ≤ s.cfg.maxSeq → p.length ≤ s.cfg.pktMax →
    s.station.tooFar = seqAddw s.station.frameExpected →
    1 ≤ (s.station.frameExpected - BitVec.ofNat s.cfg.n q.toNat).toNat →
    (s.station.frameExpected - BitVec.ofNat s.cfg.n q.toNat).toNat ≤ s.cfg.nrBufs →
    exec (.onFrameDataStep2 q p) s = .next s

/-! ### Timers, NAKs and the error (44_timers_nak.md, 60_exceptions.md) -/

/-- R200 to R203: what each timer operation writes, and that it writes nothing else. -/
def Obligations.TimerOperationsWriteTheirTimer : Prop :=
  ∀ (s : State) (q : Byte), q.toNat ≤ s.cfg.maxSeq →
    let k : Seq s.cfg := BitVec.ofNat s.cfg.n q.toNat
    exec (.startDataTimer q) s = .next { s with station := { s.station with
      dataTimer := s.station.dataTimer.set (seqSlot k).val ⟨true, k, s.cfg.dataTimerDuration⟩ (seqSlot k).isLt } } ∧
    exec (.stopDataTimer q) s = .next { s with station := { s.station with
      dataTimer := s.station.dataTimer.set (seqSlot k).val
        { s.station.dataTimer.get (seqSlot k) with armed := false } (seqSlot k).isLt } } ∧
    exec .startAckTimer s = .next { s with station := { s.station with
      ackTimer := ⟨true, s.cfg.ackTimerDuration⟩ } } ∧
    exec .stopAckTimer s = .next { s with station := { s.station with
      ackTimer := ⟨false, s.station.ackTimer.remaining⟩ } }

/-- R200, R201, R204: a stopped timer cannot expire, and starting a timer cancels whatever its slot held. -/
def Obligations.StaleTimersNeverExpire : Prop :=
  ∀ (s t : State) (q r : Byte), q.toNat ≤ s.cfg.maxSeq → r.toNat ≤ s.cfg.maxSeq →
    q.toNat % s.cfg.nrBufs = r.toNat % s.cfg.nrBufs →
    (exec (.stopDataTimer q) s = .next t → exec (.dataTimeout r) t = .refused .staleDataTimeout) ∧
    (exec (.startDataTimer q) s = .next t → r ≠ q → exec (.dataTimeout r) t = .refused .staleDataTimeout)

/-- R141, R205: SendFrame transmits the serialized frame; a NAK clears `no_nak` (the spec's decision D8), and nothing else
changes. -/
def Obligations.SendFrameTransmits : Prop :=
  ∀ (s : State) (q : Byte) (p : Packet), q.toNat ≤ s.cfg.maxSeq →
    (s.station.outBuf.read (seqSlot (BitVec.ofNat s.cfg.n q.toNat)) = some p →
      exec (.sendFrame .data q) s = .next { s with station := { s.station with
        outs := s.station.outs ++ [.transmit (serializeFrame s.cfg ⟨.data, ackByte s.station, q, p⟩)] } }) ∧
    exec (.sendFrame .ack q) s = .next { s with station := { s.station with
      outs := s.station.outs ++ [.transmit (serializeFrame s.cfg ⟨.ack, ackByte s.station, 0, []⟩)] } } ∧
    exec (.sendFrame .nak q) s = .next { s with station := { s.station with
      noNak := false
      outs := s.station.outs ++ [.transmit (serializeFrame s.cfg ⟨.nak, ackByte s.station, 0, []⟩)] } } ∧
    exec .sendFrameNak s = .next { s with station := { s.station with
      noNak := false
      outs := s.station.outs ++ [.transmit (serializeFrame s.cfg ⟨.nak, ackByte s.station, 0, []⟩)] } }

/-- R207: CORRUPT_NAK sends one NAK and clears `no_nak` if it was set, and otherwise changes nothing. -/
def Obligations.CorruptNakSendsAtMostOne : Prop :=
  ∀ s : State,
    (s.station.noNak = true → exec .corruptNak s = .next { s with station := { s.station with
      noNak := false
      outs := s.station.outs ++ [.transmit (serializeFrame s.cfg ⟨.nak, ackByte s.station, 0, []⟩)] } }) ∧
    (s.station.noNak = false → exec .corruptNak s = .next s)

/-- R146, R250: after a `CorruptionError` nothing of the input is used: the causes are indistinguishable, and all that
happens is CORRUPT_NAK and the gate. -/
def Obligations.CorruptInputsAreIndistinguishable : Prop :=
  ∀ (s : State) (x : Option Bytes), validateInput s.cfg x = .corruptionError →
    exec (.frameArrived x) s = exec (.frameArrived none) s ∧
    exec (.frameArrived x) s = chain (exec .corruptNak s) (exec .gate)

/-! ### Event Dispatch Loop (45_dispatch.md) -/

/-- R230: GATE rewrites and drives the level, and nothing else changes. -/
def Obligations.GateDrivesTheFormula : Prop :=
  ∀ s : State, exec .gate s = .next { s with station := { s.station with
    intakeEn := decide (s.station.nbuffered.toNat < s.cfg.nrBufs) && s.station.chReady
    outs := s.station.outs ++ [.intake (decide (s.station.nbuffered.toNat < s.cfg.nrBufs) && s.station.chReady)] } }

/-- R223 with R230: CHANNEL_READY sets `ch_ready`, and the gate follows. -/
def Obligations.ChannelReadySetsTheFlag : Prop :=
  ∀ s : State, exec .channelReady s = .next { s with station := { s.station with
    chReady := true
    intakeEn := decide (s.station.nbuffered.toNat < s.cfg.nrBufs)
    outs := s.station.outs ++ [.intake (decide (s.station.nbuffered.toNat < s.cfg.nrBufs))] } }

/-- R222: NEW_PACKET_READY, taken while `intake_en = 1`, is SUBMIT and the gate, with None the gate alone; while
`intake_en = 0`, and with a packet longer than `PKT_MAX`, it has no step. -/
def Obligations.NewPacketIsSubmitThenGate : Prop :=
  ∀ (s : State) (p : Packet),
    (p.length ≤ s.cfg.pktMax → s.station.intakeEn = true →
      exec (.newPacketReady (some p)) s = chain (exec (.submit p) s) (exec .gate) ∧
      exec (.newPacketReady none) s = exec .gate s) ∧
    (p.length ≤ s.cfg.pktMax → s.station.intakeEn = false →
      exec (.newPacketReady (some p)) s = .refused .intakeClosed ∧
      exec (.newPacketReady none) s = .refused .intakeClosed) ∧
    (s.cfg.pktMax < p.length → exec (.newPacketReady (some p)) s = .refused .packetTooLong)

/-- R225: DATA_TIMEOUT(s) is TIMEOUT_RESEND(s) and the gate, for a timer armed for `s`; otherwise it has no step. -/
def Obligations.DataTimeoutIsResendThenGate : Prop :=
  ∀ (s : State) (q : Byte), q.toNat ≤ s.cfg.maxSeq →
    let k : Seq s.cfg := BitVec.ofNat s.cfg.n q.toNat
    ((s.station.dataTimer.get (seqSlot k)).armed = true ∧ (s.station.dataTimer.get (seqSlot k)).seq = k →
      exec (.dataTimeout q) s = chain (exec (.timeoutResend q) s) (exec .gate)) ∧
    (¬((s.station.dataTimer.get (seqSlot k)).armed = true ∧ (s.station.dataTimer.get (seqSlot k)).seq = k) →
      exec (.dataTimeout q) s = .refused .staleDataTimeout)

/-- R226 with R230: ACK_TIMEOUT disarms the ack timer, sends the pure ACK with the current piggyback value, and the gate
follows; nothing else changes. That it has no step with the timer disarmed is U5 and D30 (DEDUCED,
notes/assumptions/10.md). -/
def Obligations.AckTimeoutSendsThePureAck : Prop :=
  ∀ s : State,
    (s.station.ackTimer.armed = true →
      exec .ackTimeout s = .next { s with station := { s.station with
        ackTimer := ⟨false, s.station.ackTimer.remaining⟩
        intakeEn := decide (s.station.nbuffered.toNat < s.cfg.nrBufs) && s.station.chReady
        outs := s.station.outs ++
          [.transmit (serializeFrame s.cfg ⟨.ack, ackByte s.station, 0, []⟩),
           .intake (decide (s.station.nbuffered.toNat < s.cfg.nrBufs) && s.station.chReady)] } }) ∧
    (s.station.ackTimer.armed = false → exec .ackTimeout s = .refused .ackTimerDisarmed)

/-- R224: a validated frame runs ON_FRAME_DATA (DATA only), NAK_RESEND (NAK only) and ACK_PROGRESS (all kinds) in that
order, then the gate (R220). -/
def Obligations.ValidatedFrameRunsItsHandlers : Prop :=
  ∀ (s : State) (a q : Byte) (p : Packet), a.toNat ≤ s.cfg.maxSeq → q.toNat ≤ s.cfg.maxSeq → p.length ≤ s.cfg.pktMax →
    exec (.data a q p) s
      = chain (exec (.onFrameData ⟨.data, a, q, p⟩) s) (fun t => chain (exec (.ackProgress a) t) (exec .gate)) ∧
    exec (.nak a q) s = chain (exec (.nakResend a) s) (fun t => chain (exec (.ackProgress a) t) (exec .gate)) ∧
    exec (.ack a q) s = chain (exec (.ackProgress a) s) (exec .gate)

/-- R224: FRAME_ARRIVED with a string that validates is the arrival of that frame, whatever the checksum. -/
def Obligations.FrameArrivedIsTheFrameItCarries : Prop :=
  ∀ (s : State) (bs : Bytes) (i : Instr), decode s.cfg ⟨.channel, bs⟩ = .instr i →
    exec (.frameArrived (some bs)) s = exec i s

/-- R253, R302: an outstanding frame is resent by its timer however often that has happened before: in every state of the
invariants its DATA_TIMEOUT has a step, which transmits that frame and nothing else, and leaves it outstanding with its
timer armed for it. -/
def Obligations.OutstandingFramesAreAlwaysResent : Prop :=
  ∀ (s : State) (q : Byte), s.Inv → q.toNat ≤ s.cfg.maxSeq →
    outstanding s.station (BitVec.ofNat s.cfg.n q.toNat) →
    ∃ (p : Packet) (t : Station s.cfg),
      s.station.outBuf.read (seqSlot (BitVec.ofNat s.cfg.n q.toNat)) = some p ∧
      exec (.dataTimeout q) s = .next { s with station := t } ∧
      t.outs = s.station.outs ++ [.transmit (serializeFrame s.cfg ⟨.data, ackByte s.station, q, p⟩),
        .intake s.station.intakeEn] ∧
      outstanding t (BitVec.ofNat s.cfg.n q.toNat) ∧
      t.dataTimer.get (seqSlot (BitVec.ofNat s.cfg.n q.toNat))
        = ⟨true, BitVec.ofNat s.cfg.n q.toNat, s.cfg.dataTimerDuration⟩

/-- R304, R258: in every state of the invariant every enabled event, and every validated frame, completes: no handler can
fault. -/
def Obligations.EnabledEventsComplete : Prop :=
  ∀ (s : State) (a q : Byte) (p : Packet) (x : Option Bytes), s.Inv →
    a.toNat ≤ s.cfg.maxSeq → q.toNat ≤ s.cfg.maxSeq → p.length ≤ s.cfg.pktMax →
    (∃ t, exec (.data a q p) s = .next t) ∧ (∃ t, exec (.ack a q) s = .next t) ∧ (∃ t, exec (.nak a q) s = .next t) ∧
    (∃ t, exec (.frameArrived x) s = .next t) ∧ (∃ t, exec .channelReady s = .next t) ∧
    (s.station.intakeEn = true →
      (∃ t, exec (.newPacketReady (some p)) s = .next t) ∧ ∃ t, exec (.newPacketReady none) s = .next t) ∧
    ((s.station.dataTimer.get (seqSlot (BitVec.ofNat s.cfg.n q.toNat))).armed = true ∧
        (s.station.dataTimer.get (seqSlot (BitVec.ofNat s.cfg.n q.toNat))).seq = BitVec.ofNat s.cfg.n q.toNat →
      ∃ t, exec (.dataTimeout q) s = .next t) ∧
    (s.station.ackTimer.armed = true → ∃ t, exec .ackTimeout s = .next t)

/-! ### The whole machine -/

/-- A step runs the decoded operation on the machine with the word taken; with nothing presented the machine is idle at the
wait; a string on the channel that does not validate is FRAME_ARRIVED with that string (R220, R250, R270); any other word that
is no operation has no step, and the refusal says why it is none (R99, R100, U9). -/
def Obligations.StepRunsTheDecodedOperation : Prop :=
  ∀ (s : State) (w : Presented) (rest : List Presented),
    (s.inbox = [] → step s = .next s) ∧
    (∀ i, s.inbox = w :: rest → decode s.cfg w = .instr i → step s = exec i { s with inbox := rest }) ∧
    (s.inbox = w :: rest → decode s.cfg w = .rejected .corruptFrame →
      step s = exec (.frameArrived (some w.bytes)) { s with inbox := rest }) ∧
    (∀ why, s.inbox = w :: rest → decode s.cfg w = .rejected why → why ≠ .corruptFrame →
      step s = .refused (.undecodable why))

/-- R280: the reset state, register by register, for every instance; `State.reset` is that of the reference instance
(notes/assumptions/1.md). The values are the spec's decision D15. -/
def Obligations.ResetValues : Prop :=
  State.reset = State.resetOf Config.reference ∧
  ∀ c : Config, (State.resetOf c).cfg = c ∧ (State.resetOf c).inbox = [] ∧
    (State.resetOf c).station.ackExpected.toNat = 0 ∧ (State.resetOf c).station.nextFrameToSend.toNat = 0 ∧
    (State.resetOf c).station.nbuffered.toNat = 0 ∧ (State.resetOf c).station.frameExpected.toNat = 0 ∧
    (State.resetOf c).station.tooFar.toNat = c.nrBufs ∧
    (∀ i, (State.resetOf c).station.outBuf.read i = none ∧ (State.resetOf c).station.inBuf.read i = none ∧
      ((State.resetOf c).station.dataTimer.get i).armed = false ∧ (State.resetOf c).station.arrived.get i = false) ∧
    (State.resetOf c).station.ackTimer.armed = false ∧ (State.resetOf c).station.noNak = true ∧
    (State.resetOf c).station.chReady = false ∧ (State.resetOf c).station.intakeEn = false

/-- R285: at reset, of the five events only CHANNEL_READY and FRAME_ARRIVED are enabled. -/
def Obligations.ResetEnablesTwoEvents : Prop :=
  ∀ (c : Config) (q : Byte) (p : Packet) (x : Option Bytes), q.toNat ≤ c.maxSeq → p.length ≤ c.pktMax →
    (∃ t, exec .channelReady (State.resetOf c) = .next t) ∧
    (∃ t, exec (.frameArrived x) (State.resetOf c) = .next t) ∧
    exec (.newPacketReady (some p)) (State.resetOf c) = .refused .intakeClosed ∧
    exec (.newPacketReady none) (State.resetOf c) = .refused .intakeClosed ∧
    exec (.dataTimeout q) (State.resetOf c) = .refused .staleDataTimeout ∧
    exec .ackTimeout (State.resetOf c) = .refused .ackTimerDisarmed

/-- The invariants of R300 to R305, and the counts of R184 and R206, hold at reset, on every instance. -/
def Obligations.ResetSatisfiesTheInvariants : Prop :=
  ∀ c : Config, (State.resetOf c).Inv ∧ (State.resetOf c).NakInv ∧ (State.resetOf c).DeliveryInv

/-- R300 to R305: every step keeps the invariants, whatever is presented. -/
def Obligations.StepKeepsTheInvariants : Prop :=
  ∀ s t : State, s.Inv → step s = .next t → t.Inv

/-- R304: from a state of the invariants no step reads a never-written slot. -/
def Obligations.StepNeverReadsAnUnwrittenSlot : Prop :=
  ∀ (s : State) (f : Fault), s.Inv → step s ≠ .fault f

/-- R184, R205, R206: every step keeps the bound of one NAK per delivery, one more before the first, and keeps
`frame_expected` equal to the number of deliveries modulo `M`. -/
def Obligations.StepKeepsTheCounts : Prop :=
  ∀ s t : State, step s = .next t → (s.NakInv → t.NakInv) ∧ (s.DeliveryInv → t.DeliveryInv)

/-- The model's stop for a read of a slot never written since reset (the spec's decision D35 and U6; notes/assumptions/8.md):
every operation that would read it faults, naming the slot. -/
def Obligations.UnwrittenSlotsFault : Prop :=
  ∀ (s : State) (q : Byte), q.toNat ≤ s.cfg.maxSeq →
    let k : Seq s.cfg := BitVec.ofNat s.cfg.n q.toNat
    (s.station.outBuf.read (seqSlot k) = none →
      exec (.build .data q) s = .fault (.unwrittenOutSlot (q.toNat % s.cfg.nrBufs)) ∧
      exec (.sendFrame .data q) s = .fault (.unwrittenOutSlot (q.toNat % s.cfg.nrBufs)) ∧
      ((s.station.dataTimer.get (seqSlot k)).armed = true → (s.station.dataTimer.get (seqSlot k)).seq = k →
        exec (.timeoutResend q) s = .fault (.unwrittenOutSlot (q.toNat % s.cfg.nrBufs))) ∧
      ∀ a : Byte, a.toNat ≤ s.cfg.maxSeq → BitVec.ofNat s.cfg.n (a.toNat + 1) = k → outstanding s.station k →
        exec (.nakResend a) s = .fault (.unwrittenOutSlot (q.toNat % s.cfg.nrBufs))) ∧
    (s.station.arrived.get (seqSlot s.station.frameExpected) = true →
      s.station.inBuf.read (seqSlot s.station.frameExpected) = none →
      exec .onFrameDataStep3 s = .fault (.unwrittenInSlot (s.station.frameExpected.toNat % s.cfg.nrBufs)))

/-- The model's refusals of calls whose precondition fails (R160 corner case c, R162, U2, U4; notes/assumptions/10.md):
SUBMIT while `intake_en = 0` or with the window full, TIMEOUT_RESEND for a timer that is not armed for that number. -/
def Obligations.CallsAgainstTheirPreconditionHaveNoStep : Prop :=
  ∀ (s : State) (p : Packet) (q : Byte), p.length ≤ s.cfg.pktMax → q.toNat ≤ s.cfg.maxSeq →
    let k : Seq s.cfg := BitVec.ofNat s.cfg.n q.toNat
    (s.station.intakeEn = false → exec (.submit p) s = .refused .intakeClosed) ∧
    (s.station.intakeEn = true → s.cfg.nrBufs ≤ s.station.nbuffered.toNat → exec (.submit p) s = .refused .windowFull) ∧
    (¬((s.station.dataTimer.get (seqSlot k)).armed = true ∧ (s.station.dataTimer.get (seqSlot k)).seq = k) →
      exec (.timeoutResend q) s = .refused .staleDataTimeout)

/-- An operation with an operand outside its bound has no step, and the refusal is that of the bound: a sequence number
above `MAX_SEQ` (R129, U8), a packet above `PKT_MAX` (R222, U3), a frame record that is none of R147 or not DATA where DATA is
due (R180), a string under `MIN_LEN` given to PARSE (R144). Together these are all the operations that are not well formed.
That they are refused, and in this order, is the model's choice (notes/assumptions/9.md, and 11.md for PARSE). -/
def Obligations.IllFormedOperandsHaveNoStep : Prop :=
  ∀ s : State,
    (∀ (q a b : Byte) (k : Kind) (p : Packet), s.cfg.maxSeq < q.toNat →
      ∀ i ∈ [Instr.dataTimeout q, .inc q, .pred q, .addw q, .slot q, .dist q a, .dist a q, .between q a b, .between a q b,
        .between a b q, .build k q, .ackProgress q, .timeoutResend q, .nakResend q, .onFrameDataStep1 q,
        .onFrameDataStep2 q p, .startDataTimer q, .stopDataTimer q, .sendFrame k q],
      exec i s = .refused .seqOutOfRange) ∧
    (∀ (q : Byte) (p : Packet), q.toNat ≤ s.cfg.maxSeq → s.cfg.pktMax < p.length →
      ∀ i ∈ [Instr.newPacketReady (some p), .submit p, .onFrameDataStep2 q p], exec i s = .refused .packetTooLong) ∧
    (∀ f : Frame, (s.cfg.maxSeq < f.ack.toNat ∨ s.cfg.maxSeq < f.seq.toNat ∨
        (f.kind = .data ∧ s.cfg.pktMax < f.payload.length) ∨ (f.kind ≠ .data ∧ f.payload ≠ [])) →
      exec (.serialize f) s = .refused .illFormedFrame ∧ exec (.onFrameData f) s = .refused .illFormedFrame ∧
      (f.kind = .data → exec (.data f.ack f.seq f.payload) s = .refused .illFormedFrame) ∧
      (f.payload = [] → exec (.ack f.ack f.seq) s = .refused .illFormedFrame ∧
        exec (.nak f.ack f.seq) s = .refused .illFormedFrame)) ∧
    (∀ f : Frame, f.kind ≠ .data → exec (.onFrameData f) s = .refused .illFormedFrame) ∧
    (∀ bs : Bytes, bs.length < s.cfg.minLen → exec (.parse bs) s = .refused .stringTooShort) ∧
    (∀ i : Instr, i.wf s.cfg = false →
      ∃ e ∈ [Refusal.seqOutOfRange, .packetTooLong, .illFormedFrame, .stringTooShort], exec i s = .refused e)

/-- No operation writes the parameters or what waits to be presented, and outputs are only added (R22, R14). -/
def Obligations.OperationsLeaveTheOutsideAlone : Prop :=
  ∀ (i : Instr) (s t : State), exec i s = .next t →
    t.cfg = s.cfg ∧ t.inbox = s.inbox ∧ s.station.outs <+: t.station.outs

/-- R34, R223: no operation clears `ch_ready`, and none but CHANNEL_READY sets it. -/
def Obligations.OnlyChannelReadyWritesChReady : Prop :=
  ∀ (i : Instr) (s t : State), exec i s = .next t →
    t.station.chReady = (s.station.chReady || decide (i = .channelReady))

/-- R26, R166: only SUBMIT, alone or in NEW_PACKET_READY, changes the output memory. -/
def Obligations.OnlySubmitWritesTheOutputMemory : Prop :=
  ∀ (i : Instr) (s t : State), exec i s = .next t → (∀ p, i ≠ .submit p) → (∀ p, i ≠ .newPacketReady (some p)) →
    t.station.outBuf.toList = s.station.outBuf.toList

/-- R206: an operation that delivers nothing leaves `no_nak` clear if it was clear, and one that transmits no NAK leaves it
set if it was set. -/
def Obligations.NoNakFollowsNaksAndDeliveries : Prop :=
  ∀ (i : Instr) (s t : State), exec i s = .next t →
    (deliverCount t.station.outs = deliverCount s.station.outs → s.station.noNak = false → t.station.noNak = false) ∧
    (nakCount t.station.outs = nakCount s.station.outs → s.station.noNak = true → t.station.noNak = true)

/-- R166: no operation transmits more than one frame. -/
def Obligations.AtMostOneTransmissionPerOperation : Prop :=
  ∀ (i : Instr) (s t : State), exec i s = .next t →
    (transmitted t.station.outs).length ≤ (transmitted s.station.outs).length + 1

/-- R185: a pure ACK is transmitted only by ACK_TIMEOUT (and by the bare SendFrame of an ACK that it uses). -/
def Obligations.PureAckOnlyFromAckTimeout : Prop :=
  ∀ (i : Instr) (s t : State), exec i s = .next t → i ≠ .ackTimeout → (∀ q, i ≠ .sendFrame .ack q) →
    t.station.outs.countP (Output.isFrameOf .ack) = s.station.outs.countP (Output.isFrameOf .ack)

/-- R224: the sender's operations write no receiver state, and ON_FRAME_DATA writes no sender state; neither writes the
dispatcher's flags. -/
def Obligations.SenderAndReceiverStateAreDisjoint : Prop :=
  ∀ (s : State) (a q : Byte) (p : Packet) (st : Station s.cfg),
    (exec (.submit p) s = .next { s with station := st } ∨ exec (.ackProgress a) s = .next { s with station := st } ∨
      exec (.timeoutResend q) s = .next { s with station := st } ∨ exec (.nakResend a) s = .next { s with station := st } →
      st.frameExpected = s.station.frameExpected ∧ st.tooFar = s.station.tooFar ∧ st.arrived = s.station.arrived ∧
      st.inBuf = s.station.inBuf ∧ st.ackTimer = s.station.ackTimer ∧ st.noNak = s.station.noNak ∧
      st.chReady = s.station.chReady ∧ st.intakeEn = s.station.intakeEn) ∧
    (exec (.onFrameData ⟨.data, a, q, p⟩) s = .next { s with station := st } →
      st.ackExpected = s.station.ackExpected ∧ st.nextFrameToSend = s.station.nextFrameToSend ∧
      st.nbuffered = s.station.nbuffered ∧ st.outBuf = s.station.outBuf ∧ st.dataTimer = s.station.dataTimer ∧
      st.chReady = s.station.chReady ∧ st.intakeEn = s.station.intakeEn)

/-- R230, R220: every event and every frame ends with the gate: the level is the formula's, and driving it is the last
output. -/
def Obligations.EveryEventEndsWithTheGate : Prop :=
  ∀ (s t : State) (a q : Byte) (p : Packet) (x : Option Packet) (b : Option Bytes) (i : Instr),
    i ∈ [Instr.data a q p, .ack a q, .nak a q, .newPacketReady x, .channelReady, .frameArrived b, .dataTimeout q,
      .ackTimeout] →
    exec i s = .next t →
    t.station.intakeEn = (decide (t.station.nbuffered.toNat < t.cfg.nrBufs) && t.station.chReady) ∧
      t.station.outs.getLast? = some (.intake t.station.intakeEn)

/-! ### The link (20_memory.md R70 to R73, R78; 60_exceptions.md R268) -/

/-- R78, R268, with the channel of R70 and the hypotheses `CK_SOUND` and `CHANNEL_DETECTS`. Every move whose damage is
detected keeps the invariant of the link, which ties what each consumer has, what was taken from its peer's producer, both
windows, both reorder memories and both channels; the invariant holds at the start. So in every link that satisfies it, and
after every run, whatever was lost or damaged and in whatever order the events came, each consumer has received, in order,
without gap and without duplicate, exactly the packets its peer's producer offered, but for at most `NR_BUFS` taken last; and
none of those is missing once the sender has nothing outstanding. The link is the composition of D31
(notes/assumptions/14.md). -/
def Obligations.LinkDeliversInOrderExactlyOnce : Prop :=
  (∀ (supplyA supplyB : List Packet) (w : Side) (m : LinkMove) (l l' : Link),
    l.cfg.CkSound → m.detected l.cfg → l.Inv supplyA supplyB → linkMove w m l = .next l' → l'.Inv supplyA supplyB) ∧
  (∀ (c : Config) (supplyA supplyB : List Packet), (linkReset c supplyA supplyB).Inv supplyA supplyB) ∧
  (∀ (supplyA supplyB : List Packet) (l : Link), l.Inv supplyA supplyB →
    (∃ mid : List Packet, supplyA = l.b.got ++ mid ++ l.a.supply ∧ mid.length ≤ l.cfg.nrBufs ∧
      (l.a.station.nbuffered = 0 → mid = [])) ∧
    (∃ mid : List Packet, supplyB = l.a.got ++ mid ++ l.b.supply ∧ mid.length ≤ l.cfg.nrBufs ∧
      (l.b.station.nbuffered = 0 → mid = []))) ∧
  (∀ (c : Config) (supplyA supplyB : List Packet) (ms : List (Side × LinkMove)) (l : Link),
    c.CkSound → (∀ m ∈ ms, m.2.detected c) → linkRun ms (linkReset c supplyA supplyB) = .next l →
    (∃ mid : List Packet, supplyA = l.b.got ++ mid ++ l.a.supply ∧ mid.length ≤ c.nrBufs ∧
      (l.a.station.nbuffered = 0 → mid = [])) ∧
    (∃ mid : List Packet, supplyB = l.a.got ++ mid ++ l.b.supply ∧ mid.length ≤ c.nrBufs ∧
      (l.b.station.nbuffered = 0 → mid = [])))

/-- R254, R268, R304: in every link whose two stations satisfy their invariants no move faults and each next link's stations
satisfy them, even with damage that no checksum detects; both do at the start, and so no run of the link faults. The link is
the composition of D31 (notes/assumptions/14.md). -/
def Obligations.LinkNeverFaults : Prop :=
  (∀ (w : Side) (m : LinkMove) (l : Link), l.StationsInv →
    (∀ f : Fault, linkMove w m l ≠ .fault f) ∧ ∀ l' : Link, linkMove w m l = .next l' → l'.StationsInv) ∧
  (∀ (c : Config) (supplyA supplyB : List Packet), (linkReset c supplyA supplyB).StationsInv) ∧
  (∀ (c : Config) (supplyA supplyB : List Packet) (ms : List (Side × LinkMove)) (f : Fault),
    linkRun ms (linkReset c supplyA supplyB) ≠ .fault f)
end

