-- ==== Sys2Proof/Laws/SeqSpace.lean ====
section
/-! SUPPORT. The Sequence Space functions in the word type's own arithmetic and in natural numbers: one lemma per function
and form, so that later proofs never unfold a function. The `_cases` forms have no remainder, for omega. -/

namespace Sys2Proof.Machine
open Sys2Proof

variable {c : Config}

/-! ### The parameters (R7, R8) -/

theorem M_eq_two_nrBufs (c : Config) : c.M = 2 * c.nrBufs := by
  have h : c.M = 2 * 2 ^ (c.n - 1) := by
    unfold Config.M
    rw [← Nat.pow_succ']
    congr 1
    have := c.n_pos
    omega
  unfold Config.nrBufs
  omega

theorem maxSeq_succ (c : Config) : c.maxSeq + 1 = c.M := by
  have : 0 < 2 ^ c.n := Nat.two_pow_pos c.n
  unfold Config.maxSeq Config.M
  omega

theorem M_le_256 (c : Config) : c.M ≤ 256 :=
  Nat.pow_le_pow_right (n := 2) (by decide) c.n_le

theorem seq_lt (k : Seq c) : k.toNat < c.M := k.isLt

theorem seqOk_iff (a : Byte) : seqOk c a = true ↔ a.toNat < c.M := by
  have := maxSeq_succ c
  simp only [seqOk, decide_eq_true_eq]
  omega

/-! ### Operands (R13, R91) -/

theorem toNat_ofNat_seq (k : Nat) : (BitVec.ofNat c.n k).toNat = k % c.M := BitVec.toNat_ofNat k c.n

theorem toNat_seqOf (a : Byte) : (seqOf c a).toNat = a.toNat % c.M := BitVec.toNat_setWidth c.n a

theorem toNat_zext8 (k : Seq c) : (zext8 k).toNat = k.toNat := by
  have := seq_lt k
  have := M_le_256 c
  simp only [zext8, BitVec.toNat_setWidth]
  omega

theorem seqOf_eq_ofNat (a : Byte) : seqOf c a = BitVec.ofNat c.n a.toNat := by
  apply BitVec.eq_of_toNat_eq
  rw [toNat_seqOf, toNat_ofNat_seq]

@[simp] theorem seqOf_zext8 (k : Seq c) : seqOf c (zext8 k) = k := by
  apply BitVec.eq_of_toNat_eq
  rw [toNat_seqOf, toNat_zext8, Nat.mod_eq_of_lt (seq_lt k)]

theorem zext8_seqOf {a : Byte} (h : seqOk c a = true) : zext8 (seqOf c a) = a := by
  apply BitVec.eq_of_toNat_eq
  rw [toNat_zext8, toNat_seqOf, Nat.mod_eq_of_lt ((seqOk_iff a).1 h)]

theorem seqOk_zext8 (k : Seq c) : seqOk c (zext8 k) = true := by
  rw [seqOk_iff, toNat_zext8]
  exact seq_lt k

/-! ### The functions as word arithmetic -/

theorem toNat_one_seq : (1 : Seq c).toNat = 1 := by
  have h := M_eq_two_nrBufs c
  have := c.nrBufs_pos
  rw [show (1 : Seq c) = BitVec.ofNat c.n 1 from rfl, toNat_ofNat_seq, Nat.mod_eq_of_lt]
  omega

theorem seqInc_eq (k : Seq c) : seqInc k = k + 1 := by
  apply BitVec.eq_of_toNat_eq
  rw [BitVec.toNat_add, toNat_one_seq]
  exact toNat_ofNat_seq _

theorem seqDist_eq (a b : Seq c) : seqDist a b = b - a := by
  apply BitVec.eq_of_toNat_eq
  rw [BitVec.toNat_sub, seqDist, toNat_ofNat_seq]
  change _ = (c.M - a.toNat + b.toNat) % c.M
  congr 1
  omega

theorem seqPred_eq (k : Seq c) : seqPred k = k - 1 := by
  apply BitVec.eq_of_toNat_eq
  rw [BitVec.toNat_sub, seqPred, toNat_ofNat_seq, toNat_one_seq]
  change _ = (c.M - 1 + k.toNat) % c.M
  congr 1
  have := maxSeq_succ c
  omega

theorem seqAddw_eq (k : Seq c) : seqAddw k = k + BitVec.ofNat c.n c.nrBufs := by
  apply BitVec.eq_of_toNat_eq
  rw [BitVec.toNat_add, seqAddw, toNat_ofNat_seq, toNat_ofNat_seq]
  change _ = (k.toNat + c.nrBufs % c.M) % c.M
  simp

/-! ### The functions in natural numbers, by cases -/

theorem toNat_add_one_cases (k : Seq c) :
    (k.toNat + 1 < c.M ∧ (k + 1).toNat = k.toNat + 1) ∨ (k.toNat + 1 = c.M ∧ (k + 1).toNat = 0) := by
  have h := seq_lt k
  rw [BitVec.toNat_add, toNat_one_seq]
  change (_ ∧ (k.toNat + 1) % c.M = _) ∨ (_ ∧ (k.toNat + 1) % c.M = _)
  rcases Nat.lt_or_ge (k.toNat + 1) c.M with h₁ | h₁
  · exact .inl ⟨h₁, Nat.mod_eq_of_lt h₁⟩
  · have h₂ : k.toNat + 1 = c.M := by omega
    exact .inr ⟨h₂, by rw [h₂, Nat.mod_self]⟩

theorem toNat_sub_cases (a b : Seq c) :
    (a.toNat ≤ b.toNat ∧ (b - a).toNat = b.toNat - a.toNat) ∨
    (b.toNat < a.toNat ∧ (b - a).toNat = b.toNat + c.M - a.toNat) := by
  have ha := seq_lt a
  have hb := seq_lt b
  rw [BitVec.toNat_sub]
  change (_ ∧ (c.M - a.toNat + b.toNat) % c.M = _) ∨ (_ ∧ (c.M - a.toNat + b.toNat) % c.M = _)
  rcases Nat.lt_or_ge b.toNat a.toNat with h | h
  · refine .inr ⟨h, ?_⟩
    rw [Nat.mod_eq_of_lt (by omega)]
    omega
  · refine .inl ⟨h, ?_⟩
    rw [show c.M - a.toNat + b.toNat = (b.toNat - a.toNat) + c.M by omega, Nat.add_mod_right,
      Nat.mod_eq_of_lt (by omega)]

theorem toNat_add_cases (a b : Seq c) :
    (a.toNat + b.toNat < c.M ∧ (a + b).toNat = a.toNat + b.toNat) ∨
    (c.M ≤ a.toNat + b.toNat ∧ (a + b).toNat = a.toNat + b.toNat - c.M) := by
  have ha := seq_lt a
  have hb := seq_lt b
  rw [BitVec.toNat_add]
  change (_ ∧ (a.toNat + b.toNat) % c.M = _) ∨ (_ ∧ (a.toNat + b.toNat) % c.M = _)
  rcases Nat.lt_or_ge (a.toNat + b.toNat) c.M with h | h
  · exact .inl ⟨h, Nat.mod_eq_of_lt h⟩
  · refine .inr ⟨h, ?_⟩
    rw [Nat.mod_eq_sub_mod h, Nat.mod_eq_of_lt (by omega)]

theorem val_seqSlot (k : Seq c) : (seqSlot k).val = k.toNat % c.nrBufs := rfl

theorem val_seqSlot_cases (k : Seq c) :
    (k.toNat < c.nrBufs ∧ (seqSlot k).val = k.toNat) ∨
    (c.nrBufs ≤ k.toNat ∧ (seqSlot k).val = k.toNat - c.nrBufs) := by
  have h := seq_lt k
  have hM := M_eq_two_nrBufs c
  rcases Nat.lt_or_ge k.toNat c.nrBufs with h₁ | h₁
  · exact .inl ⟨h₁, Nat.mod_eq_of_lt h₁⟩
  · refine .inr ⟨h₁, ?_⟩
    rw [val_seqSlot, Nat.mod_eq_sub_mod h₁, Nat.mod_eq_of_lt (by omega)]

/-- R125 in natural numbers. -/
theorem seqBetween_iff (a b d : Seq c) : seqBetween a b d = true ↔
    (a.toNat ≤ b.toNat ∧ b.toNat < d.toNat) ∨ (d.toNat < a.toNat ∧ a.toNat ≤ b.toNat) ∨
      (b.toNat < d.toNat ∧ d.toNat < a.toNat) := by
  simp only [seqBetween, decide_eq_true_eq, BitVec.le_def, BitVec.lt_def]

/-- The three orderings, as clockwise distances. -/
theorem seqBetween_iff_dist (a b d : Seq c) : seqBetween a b d = true ↔ (b - a).toNat < (d - a).toNat := by
  rw [seqBetween_iff]
  have := seq_lt a
  have := seq_lt b
  have := seq_lt d
  rcases toNat_sub_cases a b with h | h <;> rcases toNat_sub_cases a d with h' | h' <;> omega

end Sys2Proof.Machine
end

