-- ==== Sys2Proof/Laws/State.lean ====
section
/-! SUPPORT. One lemma per field per named update of a station, true by rfl, so that no later proof unfolds an update. -/

namespace Sys2Proof.Machine
open Sys2Proof

variable {c : Config} (st : Station c)

/-! ### gate -/

@[simp] theorem ackExpected_gate : (gate st).ackExpected = st.ackExpected := rfl
@[simp] theorem nextFrameToSend_gate : (gate st).nextFrameToSend = st.nextFrameToSend := rfl
@[simp] theorem nbuffered_gate : (gate st).nbuffered = st.nbuffered := rfl
@[simp] theorem outBuf_gate : (gate st).outBuf = st.outBuf := rfl
@[simp] theorem dataTimer_gate : (gate st).dataTimer = st.dataTimer := rfl
@[simp] theorem frameExpected_gate : (gate st).frameExpected = st.frameExpected := rfl
@[simp] theorem tooFar_gate : (gate st).tooFar = st.tooFar := rfl
@[simp] theorem arrived_gate : (gate st).arrived = st.arrived := rfl
@[simp] theorem inBuf_gate : (gate st).inBuf = st.inBuf := rfl
@[simp] theorem ackTimer_gate : (gate st).ackTimer = st.ackTimer := rfl
@[simp] theorem noNak_gate : (gate st).noNak = st.noNak := rfl
@[simp] theorem chReady_gate : (gate st).chReady = st.chReady := rfl
@[simp] theorem intakeEn_gate : (gate st).intakeEn = gateOpen st := rfl
@[simp] theorem outs_gate : (gate st).outs = st.outs ++ [.intake (gateOpen st)] := rfl

/-! ### clearNoNak -/

@[simp] theorem ackExpected_clearNoNak : (clearNoNak st).ackExpected = st.ackExpected := rfl
@[simp] theorem nextFrameToSend_clearNoNak : (clearNoNak st).nextFrameToSend = st.nextFrameToSend := rfl
@[simp] theorem nbuffered_clearNoNak : (clearNoNak st).nbuffered = st.nbuffered := rfl
@[simp] theorem outBuf_clearNoNak : (clearNoNak st).outBuf = st.outBuf := rfl
@[simp] theorem dataTimer_clearNoNak : (clearNoNak st).dataTimer = st.dataTimer := rfl
@[simp] theorem frameExpected_clearNoNak : (clearNoNak st).frameExpected = st.frameExpected := rfl
@[simp] theorem tooFar_clearNoNak : (clearNoNak st).tooFar = st.tooFar := rfl
@[simp] theorem arrived_clearNoNak : (clearNoNak st).arrived = st.arrived := rfl
@[simp] theorem inBuf_clearNoNak : (clearNoNak st).inBuf = st.inBuf := rfl
@[simp] theorem ackTimer_clearNoNak : (clearNoNak st).ackTimer = st.ackTimer := rfl
@[simp] theorem noNak_clearNoNak : (clearNoNak st).noNak = false := rfl
@[simp] theorem chReady_clearNoNak : (clearNoNak st).chReady = st.chReady := rfl
@[simp] theorem intakeEn_clearNoNak : (clearNoNak st).intakeEn = st.intakeEn := rfl
@[simp] theorem outs_clearNoNak : (clearNoNak st).outs = st.outs := rfl

/-! ### setChReady -/

@[simp] theorem ackExpected_setChReady : (setChReady st).ackExpected = st.ackExpected := rfl
@[simp] theorem nextFrameToSend_setChReady : (setChReady st).nextFrameToSend = st.nextFrameToSend := rfl
@[simp] theorem nbuffered_setChReady : (setChReady st).nbuffered = st.nbuffered := rfl
@[simp] theorem outBuf_setChReady : (setChReady st).outBuf = st.outBuf := rfl
@[simp] theorem dataTimer_setChReady : (setChReady st).dataTimer = st.dataTimer := rfl
@[simp] theorem frameExpected_setChReady : (setChReady st).frameExpected = st.frameExpected := rfl
@[simp] theorem tooFar_setChReady : (setChReady st).tooFar = st.tooFar := rfl
@[simp] theorem arrived_setChReady : (setChReady st).arrived = st.arrived := rfl
@[simp] theorem inBuf_setChReady : (setChReady st).inBuf = st.inBuf := rfl
@[simp] theorem ackTimer_setChReady : (setChReady st).ackTimer = st.ackTimer := rfl
@[simp] theorem noNak_setChReady : (setChReady st).noNak = st.noNak := rfl
@[simp] theorem chReady_setChReady : (setChReady st).chReady = true := rfl
@[simp] theorem intakeEn_setChReady : (setChReady st).intakeEn = st.intakeEn := rfl
@[simp] theorem outs_setChReady : (setChReady st).outs = st.outs := rfl

/-! ### startDataTimer -/

@[simp] theorem ackExpected_startDataTimer (q : Seq c) : (startDataTimer q st).ackExpected = st.ackExpected := rfl
@[simp] theorem nextFrameToSend_startDataTimer (q : Seq c) : (startDataTimer q st).nextFrameToSend = st.nextFrameToSend := rfl
@[simp] theorem nbuffered_startDataTimer (q : Seq c) : (startDataTimer q st).nbuffered = st.nbuffered := rfl
@[simp] theorem outBuf_startDataTimer (q : Seq c) : (startDataTimer q st).outBuf = st.outBuf := rfl
@[simp] theorem dataTimer_startDataTimer (q : Seq c) : (startDataTimer q st).dataTimer = st.dataTimer.set (seqSlot q).val ⟨true, q, c.dataTimerDuration⟩ (seqSlot q).isLt := rfl
@[simp] theorem frameExpected_startDataTimer (q : Seq c) : (startDataTimer q st).frameExpected = st.frameExpected := rfl
@[simp] theorem tooFar_startDataTimer (q : Seq c) : (startDataTimer q st).tooFar = st.tooFar := rfl
@[simp] theorem arrived_startDataTimer (q : Seq c) : (startDataTimer q st).arrived = st.arrived := rfl
@[simp] theorem inBuf_startDataTimer (q : Seq c) : (startDataTimer q st).inBuf = st.inBuf := rfl
@[simp] theorem ackTimer_startDataTimer (q : Seq c) : (startDataTimer q st).ackTimer = st.ackTimer := rfl
@[simp] theorem noNak_startDataTimer (q : Seq c) : (startDataTimer q st).noNak = st.noNak := rfl
@[simp] theorem chReady_startDataTimer (q : Seq c) : (startDataTimer q st).chReady = st.chReady := rfl
@[simp] theorem intakeEn_startDataTimer (q : Seq c) : (startDataTimer q st).intakeEn = st.intakeEn := rfl
@[simp] theorem outs_startDataTimer (q : Seq c) : (startDataTimer q st).outs = st.outs := rfl

/-! ### stopDataTimer -/

@[simp] theorem ackExpected_stopDataTimer (q : Seq c) : (stopDataTimer q st).ackExpected = st.ackExpected := rfl
@[simp] theorem nextFrameToSend_stopDataTimer (q : Seq c) : (stopDataTimer q st).nextFrameToSend = st.nextFrameToSend := rfl
@[simp] theorem nbuffered_stopDataTimer (q : Seq c) : (stopDataTimer q st).nbuffered = st.nbuffered := rfl
@[simp] theorem outBuf_stopDataTimer (q : Seq c) : (stopDataTimer q st).outBuf = st.outBuf := rfl
@[simp] theorem dataTimer_stopDataTimer (q : Seq c) : (stopDataTimer q st).dataTimer = st.dataTimer.set (seqSlot q).val { st.dataTimer.get (seqSlot q) with armed := false } (seqSlot q).isLt := rfl
@[simp] theorem frameExpected_stopDataTimer (q : Seq c) : (stopDataTimer q st).frameExpected = st.frameExpected := rfl
@[simp] theorem tooFar_stopDataTimer (q : Seq c) : (stopDataTimer q st).tooFar = st.tooFar := rfl
@[simp] theorem arrived_stopDataTimer (q : Seq c) : (stopDataTimer q st).arrived = st.arrived := rfl
@[simp] theorem inBuf_stopDataTimer (q : Seq c) : (stopDataTimer q st).inBuf = st.inBuf := rfl
@[simp] theorem ackTimer_stopDataTimer (q : Seq c) : (stopDataTimer q st).ackTimer = st.ackTimer := rfl
@[simp] theorem noNak_stopDataTimer (q : Seq c) : (stopDataTimer q st).noNak = st.noNak := rfl
@[simp] theorem chReady_stopDataTimer (q : Seq c) : (stopDataTimer q st).chReady = st.chReady := rfl
@[simp] theorem intakeEn_stopDataTimer (q : Seq c) : (stopDataTimer q st).intakeEn = st.intakeEn := rfl
@[simp] theorem outs_stopDataTimer (q : Seq c) : (stopDataTimer q st).outs = st.outs := rfl

/-! ### startAckTimer -/

@[simp] theorem ackExpected_startAckTimer : (startAckTimer st).ackExpected = st.ackExpected := rfl
@[simp] theorem nextFrameToSend_startAckTimer : (startAckTimer st).nextFrameToSend = st.nextFrameToSend := rfl
@[simp] theorem nbuffered_startAckTimer : (startAckTimer st).nbuffered = st.nbuffered := rfl
@[simp] theorem outBuf_startAckTimer : (startAckTimer st).outBuf = st.outBuf := rfl
@[simp] theorem dataTimer_startAckTimer : (startAckTimer st).dataTimer = st.dataTimer := rfl
@[simp] theorem frameExpected_startAckTimer : (startAckTimer st).frameExpected = st.frameExpected := rfl
@[simp] theorem tooFar_startAckTimer : (startAckTimer st).tooFar = st.tooFar := rfl
@[simp] theorem arrived_startAckTimer : (startAckTimer st).arrived = st.arrived := rfl
@[simp] theorem inBuf_startAckTimer : (startAckTimer st).inBuf = st.inBuf := rfl
@[simp] theorem ackTimer_startAckTimer : (startAckTimer st).ackTimer = ⟨true, c.ackTimerDuration⟩ := rfl
@[simp] theorem noNak_startAckTimer : (startAckTimer st).noNak = st.noNak := rfl
@[simp] theorem chReady_startAckTimer : (startAckTimer st).chReady = st.chReady := rfl
@[simp] theorem intakeEn_startAckTimer : (startAckTimer st).intakeEn = st.intakeEn := rfl
@[simp] theorem outs_startAckTimer : (startAckTimer st).outs = st.outs := rfl

/-! ### stopAckTimer -/

@[simp] theorem ackExpected_stopAckTimer : (stopAckTimer st).ackExpected = st.ackExpected := rfl
@[simp] theorem nextFrameToSend_stopAckTimer : (stopAckTimer st).nextFrameToSend = st.nextFrameToSend := rfl
@[simp] theorem nbuffered_stopAckTimer : (stopAckTimer st).nbuffered = st.nbuffered := rfl
@[simp] theorem outBuf_stopAckTimer : (stopAckTimer st).outBuf = st.outBuf := rfl
@[simp] theorem dataTimer_stopAckTimer : (stopAckTimer st).dataTimer = st.dataTimer := rfl
@[simp] theorem frameExpected_stopAckTimer : (stopAckTimer st).frameExpected = st.frameExpected := rfl
@[simp] theorem tooFar_stopAckTimer : (stopAckTimer st).tooFar = st.tooFar := rfl
@[simp] theorem arrived_stopAckTimer : (stopAckTimer st).arrived = st.arrived := rfl
@[simp] theorem inBuf_stopAckTimer : (stopAckTimer st).inBuf = st.inBuf := rfl
@[simp] theorem ackTimer_stopAckTimer : (stopAckTimer st).ackTimer = { st.ackTimer with armed := false } := rfl
@[simp] theorem noNak_stopAckTimer : (stopAckTimer st).noNak = st.noNak := rfl
@[simp] theorem chReady_stopAckTimer : (stopAckTimer st).chReady = st.chReady := rfl
@[simp] theorem intakeEn_stopAckTimer : (stopAckTimer st).intakeEn = st.intakeEn := rfl
@[simp] theorem outs_stopAckTimer : (stopAckTimer st).outs = st.outs := rfl

/-! ### transmit -/

@[simp] theorem ackExpected_transmit (bs : Bytes) : (transmit bs st).ackExpected = st.ackExpected := rfl
@[simp] theorem nextFrameToSend_transmit (bs : Bytes) : (transmit bs st).nextFrameToSend = st.nextFrameToSend := rfl
@[simp] theorem nbuffered_transmit (bs : Bytes) : (transmit bs st).nbuffered = st.nbuffered := rfl
@[simp] theorem outBuf_transmit (bs : Bytes) : (transmit bs st).outBuf = st.outBuf := rfl
@[simp] theorem dataTimer_transmit (bs : Bytes) : (transmit bs st).dataTimer = st.dataTimer := rfl
@[simp] theorem frameExpected_transmit (bs : Bytes) : (transmit bs st).frameExpected = st.frameExpected := rfl
@[simp] theorem tooFar_transmit (bs : Bytes) : (transmit bs st).tooFar = st.tooFar := rfl
@[simp] theorem arrived_transmit (bs : Bytes) : (transmit bs st).arrived = st.arrived := rfl
@[simp] theorem inBuf_transmit (bs : Bytes) : (transmit bs st).inBuf = st.inBuf := rfl
@[simp] theorem ackTimer_transmit (bs : Bytes) : (transmit bs st).ackTimer = st.ackTimer := rfl
@[simp] theorem noNak_transmit (bs : Bytes) : (transmit bs st).noNak = st.noNak := rfl
@[simp] theorem chReady_transmit (bs : Bytes) : (transmit bs st).chReady = st.chReady := rfl
@[simp] theorem intakeEn_transmit (bs : Bytes) : (transmit bs st).intakeEn = st.intakeEn := rfl
@[simp] theorem outs_transmit (bs : Bytes) : (transmit bs st).outs = st.outs ++ [.transmit bs] := rfl

/-! ### deliver -/

@[simp] theorem ackExpected_deliver (p : Packet) : (deliver p st).ackExpected = st.ackExpected := rfl
@[simp] theorem nextFrameToSend_deliver (p : Packet) : (deliver p st).nextFrameToSend = st.nextFrameToSend := rfl
@[simp] theorem nbuffered_deliver (p : Packet) : (deliver p st).nbuffered = st.nbuffered := rfl
@[simp] theorem outBuf_deliver (p : Packet) : (deliver p st).outBuf = st.outBuf := rfl
@[simp] theorem dataTimer_deliver (p : Packet) : (deliver p st).dataTimer = st.dataTimer := rfl
@[simp] theorem frameExpected_deliver (p : Packet) : (deliver p st).frameExpected = st.frameExpected := rfl
@[simp] theorem tooFar_deliver (p : Packet) : (deliver p st).tooFar = st.tooFar := rfl
@[simp] theorem arrived_deliver (p : Packet) : (deliver p st).arrived = st.arrived := rfl
@[simp] theorem inBuf_deliver (p : Packet) : (deliver p st).inBuf = st.inBuf := rfl
@[simp] theorem ackTimer_deliver (p : Packet) : (deliver p st).ackTimer = st.ackTimer := rfl
@[simp] theorem noNak_deliver (p : Packet) : (deliver p st).noNak = st.noNak := rfl
@[simp] theorem chReady_deliver (p : Packet) : (deliver p st).chReady = st.chReady := rfl
@[simp] theorem intakeEn_deliver (p : Packet) : (deliver p st).intakeEn = st.intakeEn := rfl
@[simp] theorem outs_deliver (p : Packet) : (deliver p st).outs = st.outs ++ [.deliver p] := rfl

/-! ### retireOldest -/

@[simp] theorem ackExpected_retireOldest : (retireOldest st).ackExpected = seqInc st.ackExpected := rfl
@[simp] theorem nextFrameToSend_retireOldest : (retireOldest st).nextFrameToSend = st.nextFrameToSend := rfl
@[simp] theorem nbuffered_retireOldest : (retireOldest st).nbuffered = st.nbuffered - 1 := rfl
@[simp] theorem outBuf_retireOldest : (retireOldest st).outBuf = st.outBuf := rfl
@[simp] theorem dataTimer_retireOldest : (retireOldest st).dataTimer = (stopDataTimer st.ackExpected st).dataTimer := rfl
@[simp] theorem frameExpected_retireOldest : (retireOldest st).frameExpected = st.frameExpected := rfl
@[simp] theorem tooFar_retireOldest : (retireOldest st).tooFar = st.tooFar := rfl
@[simp] theorem arrived_retireOldest : (retireOldest st).arrived = st.arrived := rfl
@[simp] theorem inBuf_retireOldest : (retireOldest st).inBuf = st.inBuf := rfl
@[simp] theorem ackTimer_retireOldest : (retireOldest st).ackTimer = st.ackTimer := rfl
@[simp] theorem noNak_retireOldest : (retireOldest st).noNak = st.noNak := rfl
@[simp] theorem chReady_retireOldest : (retireOldest st).chReady = st.chReady := rfl
@[simp] theorem intakeEn_retireOldest : (retireOldest st).intakeEn = st.intakeEn := rfl
@[simp] theorem outs_retireOldest : (retireOldest st).outs = st.outs := rfl

/-! ### deliverExpected -/

@[simp] theorem ackExpected_deliverExpected (p : Packet) : (deliverExpected p st).ackExpected = st.ackExpected := rfl
@[simp] theorem nextFrameToSend_deliverExpected (p : Packet) : (deliverExpected p st).nextFrameToSend = st.nextFrameToSend := rfl
@[simp] theorem nbuffered_deliverExpected (p : Packet) : (deliverExpected p st).nbuffered = st.nbuffered := rfl
@[simp] theorem outBuf_deliverExpected (p : Packet) : (deliverExpected p st).outBuf = st.outBuf := rfl
@[simp] theorem dataTimer_deliverExpected (p : Packet) : (deliverExpected p st).dataTimer = st.dataTimer := rfl
@[simp] theorem frameExpected_deliverExpected (p : Packet) : (deliverExpected p st).frameExpected = seqInc st.frameExpected := rfl
@[simp] theorem tooFar_deliverExpected (p : Packet) : (deliverExpected p st).tooFar = seqInc st.tooFar := rfl
@[simp] theorem arrived_deliverExpected (p : Packet) : (deliverExpected p st).arrived = st.arrived.set (seqSlot st.frameExpected).val false (seqSlot st.frameExpected).isLt := rfl
@[simp] theorem inBuf_deliverExpected (p : Packet) : (deliverExpected p st).inBuf = st.inBuf := rfl
@[simp] theorem ackTimer_deliverExpected (p : Packet) : (deliverExpected p st).ackTimer = ⟨true, c.ackTimerDuration⟩ := rfl
@[simp] theorem noNak_deliverExpected (p : Packet) : (deliverExpected p st).noNak = true := rfl
@[simp] theorem chReady_deliverExpected (p : Packet) : (deliverExpected p st).chReady = st.chReady := rfl
@[simp] theorem intakeEn_deliverExpected (p : Packet) : (deliverExpected p st).intakeEn = st.intakeEn := rfl
@[simp] theorem outs_deliverExpected (p : Packet) : (deliverExpected p st).outs = st.outs ++ [.deliver p] := rfl

/-! ### Banks: what is read after a write (R62) -/

theorem bank_get_eq {α : Type} {k : Nat} (v : Vector α k) (i : Fin k) : v.get i = v[i.val] := rfl

@[simp] theorem bank_get_set_self {α : Type} {k : Nat} (v : Vector α k) (i : Fin k) (x : α) :
    (v.set i.val x i.isLt).get i = x := by
  rw [bank_get_eq, Vector.getElem_set_self]

theorem bank_get_set_ne {α : Type} {k : Nat} (v : Vector α k) {i j : Fin k} (x : α) (h : j ≠ i) :
    (v.set i.val x i.isLt).get j = v.get j := by
  rw [bank_get_eq, bank_get_eq, Vector.getElem_set_ne]
  exact fun e => h (Fin.ext e.symm)

theorem bank_get_set {α : Type} {k : Nat} (v : Vector α k) (i j : Fin k) (x : α) :
    (v.set i.val x i.isLt).get j = if j = i then x else v.get j := by
  split
  · subst_vars; exact bank_get_set_self v _ x
  · exact bank_get_set_ne v x ‹_›

@[simp] theorem bank_get_replicate {α : Type} {k : Nat} (x : α) (i : Fin k) : (Vector.replicate k x).get i = x := by
  rw [bank_get_eq, Vector.getElem_replicate]

end Sys2Proof.Machine
end

