-- ==== Sys2Proof/Laws/Ops.lean ====
section
/-! SUPPORT. One lemma per shared operation that says once everything it can answer; later proofs cite these and never
unfold the operation. -/

namespace Sys2Proof.Machine
open Sys2Proof

/-! ### Sequencing -/

section
variable {σ τ : Type}

@[simp] theorem chain_next (s : σ) (f : σ → Result τ) : chain (.next s) f = f s := rfl
@[simp] theorem chain_fault (e : Fault) (f : σ → Result τ) : chain (.fault e) f = .fault e := rfl
@[simp] theorem chain_refused (e : Refusal) (f : σ → Result τ) : chain (.refused e) f = .refused e := rfl

theorem chain_eq_next {r : Result σ} {f : σ → Result τ} {t : τ} :
    chain r f = .next t ↔ ∃ s, r = .next s ∧ f s = .next t := by
  cases r <;> simp

theorem chain_eq_fault {r : Result σ} {f : σ → Result τ} {e : Fault} :
    chain r f = .fault e ↔ r = .fault e ∨ ∃ s, r = .next s ∧ f s = .fault e := by
  cases r <;> simp

theorem chain_assoc {υ : Type} (r : Result σ) (f : σ → Result τ) (g : τ → Result υ) :
    chain (chain r f) g = chain r fun s => chain (f s) g := by
  cases r <;> rfl

end

theorem onStation_eq_next {s t : State} {f : Station s.cfg → Result (Station s.cfg)} :
    onStation s f = .next t ↔ ∃ st, f s.station = .next st ∧ t = { s with station := st } := by
  simp only [onStation, chain_eq_next]
  constructor
  · rintro ⟨st, h, e⟩
    injection e with e
    exact ⟨st, h, e.symm⟩
  · rintro ⟨st, h, rfl⟩
    exact ⟨st, h, rfl⟩

theorem onStation_eq_fault {s : State} {f : Station s.cfg → Result (Station s.cfg)} {e : Fault} :
    onStation s f = .fault e ↔ f s.station = .fault e := by
  simp [onStation, chain_eq_fault]

/-- Two station operations run one after the other by the machine are one station operation. -/
theorem chain_onStation {s : State} {f : Station s.cfg → Result (Station s.cfg)} {k : State → Result State} :
    chain (onStation s f) k = chain (f s.station) fun st => k { s with station := st } := by
  rw [onStation, chain_assoc]
  rfl

theorem endHandler_eq_next {c : Config} {r : Result (Station c)} {st : Station c} :
    endHandler r = .next st ↔ ∃ st₁, r = .next st₁ ∧ st = gate st₁ := by
  simp only [endHandler, chain_eq_next]
  constructor
  · rintro ⟨st₁, h, e⟩
    injection e with e
    exact ⟨st₁, h, e.symm⟩
  · rintro ⟨st₁, h, rfl⟩
    exact ⟨st₁, h, rfl⟩

theorem endHandler_eq_fault {c : Config} {r : Result (Station c)} {e : Fault} :
    endHandler r = .fault e ↔ r = .fault e := by
  simp [endHandler, chain_eq_fault]

/-! ### Operands -/

theorem withSeq_of_ok {s : State} {a : Byte} {k : Seq s.cfg → Result State} (h : seqOk s.cfg a = true) :
    withSeq s a k = k (seqOf s.cfg a) := by
  simp [withSeq, h]

theorem withSeq_eq_next {s t : State} {a : Byte} {k : Seq s.cfg → Result State} :
    withSeq s a k = .next t ↔ seqOk s.cfg a = true ∧ k (seqOf s.cfg a) = .next t := by
  unfold withSeq
  split <;> simp_all

theorem withPacket_eq_next {s t : State} {p : Packet} {k : Result State} :
    withPacket s p k = .next t ↔ packetOk s.cfg p = true ∧ k = .next t := by
  unfold withPacket
  split <;> simp_all

theorem withFrame_eq_next {s t : State} {f : Frame} {k : Result State} :
    withFrame s f k = .next t ↔ frameOk s.cfg f = true ∧ k = .next t := by
  unfold withFrame
  split <;> simp_all

theorem answer_eq_next {s t : State} {v : Value} : answer s v = .next t ↔ t = { s with ret := v } := by
  unfold answer
  constructor
  · intro e
    injection e with e
    exact e.symm
  · rintro rfl
    rfl

/-! ### Memories (R60 to R62) -/

section
variable {c : Config} (m : Memory c)

@[simp] theorem read_write_self (i : Slot c) (p : Packet) : (m.write i p).read i = some p :=
  bank_get_set_self m i _

theorem read_write_ne {i j : Slot c} (p : Packet) (h : j ≠ i) : (m.write i p).read j = m.read j :=
  bank_get_set_ne m _ h

theorem memory_wf_iff : m.wf = true ↔ ∀ (i : Slot c) (p : Packet), m.read i = some p → packetOk c p = true := by
  simp only [Memory.wf, List.all_eq_true, Memory.read]
  constructor
  · intro h i p e
    have := h (some p) (by
      rw [← e, bank_get_eq]
      exact List.mem_of_getElem (i := i.val) (h := by simp) (by simp))
    simpa using this
  · intro h o ho
    obtain ⟨k, hk, e⟩ := List.mem_iff_getElem.1 ho
    have hk' : k < c.nrBufs := by simpa using hk
    cases o with
    | none => rfl
    | some p => exact h ⟨k, hk'⟩ p (by rw [bank_get_eq, ← e]; simp)

/-- Every memory operation keeps the form: a write of a packet that fits does, and a read changes nothing. -/
theorem wf_write (i : Slot c) (p : Packet) (h : m.wf = true) (hp : packetOk c p = true) : (m.write i p).wf = true := by
  rw [memory_wf_iff] at h ⊢
  intro j q e
  by_cases hj : j = i
  · subst hj
    rw [read_write_self] at e
    exact Option.some.inj e ▸ hp
  · exact h j q (by rw [← e, read_write_ne m p hj])

/-- The reset memories have the form: nothing is held. -/
theorem wf_replicate : Memory.wf (c := c) (Vector.replicate c.nrBufs none) = true := by
  rw [memory_wf_iff]
  intro i p e
  rw [Memory.read, bank_get_replicate] at e
  cases e

end

/-! ### Frames out -/

section
variable {c : Config} (st : Station c)

theorem zext8_piggyback : zext8 (piggyback st) = ackByte st := by
  apply BitVec.eq_of_toNat_eq
  have hM := maxSeq_succ c
  have h256 := M_le_256 c
  have hlt := Nat.mod_lt (st.frameExpected.toNat + c.maxSeq) (show 0 < c.M by omega)
  rw [toNat_zext8, piggyback, seqPred, toNat_ofNat_seq, ackByte, hM, BitVec.toNat_ofNat]
  exact (Nat.mod_eq_of_lt (by omega)).symm

/-- SendFrame of an ACK: one transmission. -/
theorem sendFrame_ack (q : Seq c) : sendFrame .ack q st
    = .next { st with outs := st.outs ++ [.transmit (serializeFrame c ⟨.ack, ackByte st, 0, []⟩)] } := by
  rw [← zext8_piggyback]
  rfl

/-- SendFrame of a NAK: one transmission, and `no_nak` is clear. -/
theorem sendFrame_nak (q : Seq c) : sendFrame .nak q st
    = .next { st with
        noNak := false
        outs := st.outs ++ [.transmit (serializeFrame c ⟨.nak, ackByte st, 0, []⟩)] } := by
  rw [← zext8_piggyback]
  rfl

/-- SendFrame of a DATA frame whose slot is written: one transmission. -/
theorem sendFrame_data {q : Seq c} {p : Packet} (h : st.outBuf.read (seqSlot q) = some p) : sendFrame .data q st
    = .next { st with outs := st.outs ++ [.transmit (serializeFrame c ⟨.data, ackByte st, zext8 q, p⟩)] } := by
  rw [← zext8_piggyback]
  simp [sendFrame, build, h, afterSend, transmit]

/-- SendFrame of a DATA frame whose slot is not written: the only fault of SendFrame. -/
theorem sendFrame_data_unwritten {q : Seq c} (h : st.outBuf.read (seqSlot q) = none) :
    sendFrame .data q st = .fault (.unwrittenOutSlot (seqSlot q).val) := by
  simp [sendFrame, build, h]

/-- Everything SendFrame can do when it answers: it transmits one frame of its kind; a NAK clears `no_nak`. -/
theorem sendFrame_eq_next {kind : Kind} {q : Seq c} {st' : Station c} (h : sendFrame kind q st = .next st') :
    ∃ f : Frame, f.kind = kind ∧ f.ack = ackByte st ∧ build kind q st = some f ∧
      st' = { st with
        noNak := st.noNak && decide (kind ≠ .nak)
        outs := st.outs ++ [.transmit (serializeFrame c f)] } := by
  cases kind with
  | data =>
    cases e : st.outBuf.read (seqSlot q) with
    | none => rw [sendFrame_data_unwritten st e] at h; cases h
    | some p =>
      rw [sendFrame_data st e] at h
      injection h with h
      refine ⟨⟨.data, ackByte st, zext8 q, p⟩, rfl, rfl, ?_, ?_⟩
      · simp [build, e, zext8_piggyback]
      · simp [← h]
  | ack =>
    rw [sendFrame_ack] at h
    injection h with h
    refine ⟨⟨.ack, ackByte st, 0, []⟩, rfl, rfl, ?_, ?_⟩
    · simp [build, zext8_piggyback]
    · simp [← h]
  | nak =>
    rw [sendFrame_nak] at h
    injection h with h
    refine ⟨⟨.nak, ackByte st, 0, []⟩, rfl, rfl, ?_, ?_⟩
    · simp [build, zext8_piggyback]
    · simp [← h]

/-- CORRUPT_NAK by the flag (R207); it never stops. -/
theorem corruptNak_cases : corruptNak st = .next (if st.noNak then
      { st with
        noNak := false
        outs := st.outs ++ [.transmit (serializeFrame c ⟨.nak, ackByte st, 0, []⟩)] }
    else st) := by
  unfold corruptNak
  split
  · rw [sendFrame_nak]
  · rfl

theorem armedFor_iff (q : Seq c) : armedFor q st = true ↔
    (st.dataTimer.get (seqSlot q)).armed = true ∧ (st.dataTimer.get (seqSlot q)).seq = q := by
  simp [armedFor]

end

end Sys2Proof.Machine
end

