-- ==== Sys2Proof/Laws/Codec.lean ====
section
/-! SUPPORT. The Frame Codec's byte strings: lengths, kinds, and what a successful `VALIDATE` says of its input. -/

namespace Sys2Proof
open Sys2Proof.Machine

variable {c : Config}

@[simp] theorem kindOf_kindCode (k : Kind) : kindOf (kindCode k) = some k := by cases k <;> rfl

theorem kindOf_eq_some {b : Byte} {k : Kind} (h : kindOf b = some k) : b = kindCode k := by
  unfold kindOf at h
  split at h <;> first | (injection h with h; subst h; exact BitVec.eq_of_toNat_eq ‹_›) | cases h

/-- `CK` yields a string of `CK_LEN` bytes (R10). -/
@[simp] theorem length_ck (body : Bytes) : (c.ck body).length = c.ckLen := by
  unfold Config.ck Config.ckLen
  cases c.checksum <;> simp

theorem ckLen_pos (c : Config) : 0 < c.ckLen := by
  unfold Config.ckLen
  cases c.checksum <;> simp

/-- The reference checksum satisfies `CK_SOUND` (G7). -/
theorem ckSound_xor8 (h : c.checksum = .xor8) : c.CkSound := by
  intro body
  simp [Config.residue, Config.ck, h, Config.xorBytes, List.foldl_append]

theorem length_frameBody (f : Frame) : (frameBody f).length = 3 + f.payload.length := by
  simp [frameBody]
  omega

theorem length_serializeFrame (f : Frame) : (serializeFrame c f).length = 3 + f.payload.length + c.ckLen := by
  simp [serializeFrame, length_frameBody]

theorem head_serializeFrame (f : Frame) : (serializeFrame c f).head? = some (kindCode f.kind) := rfl

/-- A frame of the layout, taken apart: the payload is what stands between the header and the last `CK_LEN` bytes. -/
theorem payloadOf_layout (k a q : Byte) (p tail : Bytes) (h : tail.length = c.ckLen) :
    payloadOf c (k :: a :: q :: (p ++ tail)) = p := by
  have : (k :: a :: q :: (p ++ tail)).length - c.ckLen = 3 + p.length := by
    simp only [List.length_cons, List.length_append]
    omega
  rw [payloadOf, this]
  simp [Config.hdrLen, show 3 + p.length = p.length + 1 + 1 + 1 by omega]

theorem parseFrame_layout (k a q : Byte) (p tail : Bytes) (h : tail.length = c.ckLen) :
    parseFrame c (k :: a :: q :: (p ++ tail)) =
      if malformed c k a q (c.minLen + p.length) then .corruptionError
      else match kindOf k with
        | some kind => .frame ⟨kind, a, q, p⟩
        | none => .corruptionError := by
  have hl : (k :: a :: q :: (p ++ tail)).length = c.minLen + p.length := by
    simp only [List.length_cons, List.length_append, Config.minLen, Config.hdrLen]
    omega
  rw [parseFrame, hl, payloadOf_layout k a q p tail h]
  rfl

/-- A string of at least `MIN_LEN` bytes has the layout of R91. -/
theorem layout_of_length {bs : Bytes} (h : c.minLen ≤ bs.length) :
    ∃ (k a q : Byte) (p tail : Bytes), tail.length = c.ckLen ∧ bs = k :: a :: q :: (p ++ tail) := by
  match bs, h with
  | [], h => simp [Config.minLen, Config.hdrLen] at h
  | [_], h => simp [Config.minLen, Config.hdrLen] at h; have := ckLen_pos c; omega
  | [_, _], h => simp [Config.minLen, Config.hdrLen] at h; have := ckLen_pos c; omega
  | k :: a :: q :: rest, h =>
    refine ⟨k, a, q, rest.take (rest.length - c.ckLen), rest.drop (rest.length - c.ckLen), ?_, by simp⟩
    simp [Config.minLen, Config.hdrLen] at h
    rw [List.length_drop]
    omega

/-- Everything a successful `VALIDATE` says (R143 to R145): a zero residue and a frame of the layout, well formed. -/
theorem validate_eq_frame {input : Option Bytes} {f : Frame} (h : validateInput c input = .frame f) :
    ∃ (bs tail : Bytes), input = some bs ∧ c.residue bs = 0 ∧ tail.length = c.ckLen ∧
      bs = kindCode f.kind :: f.ack :: f.seq :: (f.payload ++ tail) ∧ frameOk c f = true := by
  cases input with
  | none => cases h
  | some bs =>
    simp only [validateInput] at h
    split at h
    · cases h
    rename_i hlen
    split at h
    · cases h
    rename_i hres
    obtain ⟨k, a, q, p, tail, ht, rfl⟩ := layout_of_length (c := c) (by omega : c.minLen ≤ bs.length)
    rw [parseFrame_layout k a q p tail ht] at h
    split at h
    · cases h
    rename_i hm
    split at h
    · rename_i kind hk
      injection h with h
      subst h
      have hk' := kindOf_eq_some hk
      subst hk'
      refine ⟨_, tail, rfl, by simpa using hres, ht, rfl, ?_⟩
      simp only [malformed, kindOf_kindCode, Option.isNone_some, Bool.false_or, Bool.or_eq_true, decide_eq_true_eq,
        not_or, Bool.and_eq_true, not_and, beq_iff_eq] at hm
      obtain ⟨⟨⟨ha, hq⟩, hc⟩, hd⟩ := hm
      cases kind <;>
        simp only [frameOk, seqOk, packetOk, Bool.and_eq_true, decide_eq_true_eq, List.isEmpty_iff]
      · have := hd rfl
        simp only [Config.minLen, Config.maxLen] at this
        omega
      · have := hc (.inl rfl)
        refine ⟨by omega, List.length_eq_zero_iff.1 (by omega)⟩
      · have := hc (.inr rfl)
        refine ⟨by omega, List.length_eq_zero_iff.1 (by omega)⟩
    · cases h

end Sys2Proof
end

