-- ==== Sys2Proof/Laws/Link.lean ====
section
/-! SUPPORT. What a move of the link is (one case for each move), and what is left to do in a quiescent link (R290).
Proofs about the link cite these and then reason about one handler of one station. -/

namespace Sys2Proof.Machine
open Sys2Proof

section
variable {c : Config}

@[simp] theorem settle_station (e : LinkEnd c) (st : Station c) : (e.settle st).station = { st with outs := [] } := rfl
@[simp] theorem settle_supply (e : LinkEnd c) (st : Station c) : (e.settle st).supply = e.supply := rfl
@[simp] theorem settle_got (e : LinkEnd c) (st : Station c) : (e.settle st).got = e.got ++ delivered st.outs := rfl
@[simp] theorem settle_wire (e : LinkEnd c) (st : Station c) :
    (e.settle st).wire = e.wire ++ (transmitted st.outs).map some := rfl

/-- Everything a move of an end can do: run one handler of its station and hand its outputs over, or one channel step. -/
theorem endMove_cases {m : LinkMove} {me peer : LinkEnd c} {e : LinkEnd c × LinkEnd c} (h : endMove m me peer = .next e) :
    (∃ p rest st, m = .offer ∧ me.supply = p :: rest ∧ packetOk c p = true ∧
      onNewPacketReady (some p) me.station = .next st ∧ e = (LinkEnd.settle { me with supply := rest } st, peer)) ∨
    (∃ st, m = .offerNone ∧ me.supply ≠ [] ∧ onNewPacketReady none me.station = .next st ∧ e = (me.settle st, peer)) ∨
    (∃ st, m = .channelReady ∧ onChannelReady me.station = .next st ∧ e = (me.settle st, peer)) ∨
    (∃ f rest st, m = .arrive ∧ peer.wire = f :: rest ∧ onFrameArrived f me.station = .next st ∧
      e = (me.settle st, { peer with wire := rest })) ∨
    (∃ q st, m = .dataTimeout q ∧ seqOk c q = true ∧ onDataTimeout (seqOf c q) me.station = .next st ∧
      e = (me.settle st, peer)) ∨
    (∃ st, m = .ackTimeout ∧ onAckTimeout me.station = .next st ∧ e = (me.settle st, peer)) ∨
    (∃ f rest, m = .lose ∧ me.wire = f :: rest ∧ e = ({ me with wire := rest }, peer)) ∨
    ∃ r f rest, m = .damage r ∧ me.wire = f :: rest ∧ e = ({ me with wire := r :: rest }, peer) := by
  cases m with
  | offer =>
    refine .inl ?_
    cases hs : me.supply with
    | nil => simp [endMove, hs] at h
    | cons p rest =>
      by_cases hp : packetOk c p = true
      · simp only [endMove, hs, hp, if_true] at h
        obtain ⟨st, h₁, h₂⟩ := chain_eq_next.1 h
        cases h₂
        exact ⟨p, rest, st, rfl, rfl, hp, h₁, rfl⟩
      · simp [endMove, hs, hp] at h
  | offerNone =>
    refine .inr (.inl ?_)
    cases hs : me.supply with
    | nil => simp [endMove, hs] at h
    | cons p rest =>
      simp only [endMove, hs] at h
      obtain ⟨st, h₁, h₂⟩ := chain_eq_next.1 h
      cases h₂
      exact ⟨st, rfl, by simp, h₁, rfl⟩
  | channelReady =>
    simp only [endMove] at h
    obtain ⟨st, h₁, h₂⟩ := chain_eq_next.1 h
    cases h₂
    exact .inr (.inr (.inl ⟨st, rfl, h₁, rfl⟩))
  | arrive =>
    refine .inr (.inr (.inr (.inl ?_)))
    cases hw : peer.wire with
    | nil => simp [endMove, hw] at h
    | cons f rest =>
      simp only [endMove, hw] at h
      obtain ⟨st, h₁, h₂⟩ := chain_eq_next.1 h
      cases h₂
      exact ⟨f, rest, st, rfl, rfl, h₁, rfl⟩
  | dataTimeout q =>
    refine .inr (.inr (.inr (.inr (.inl ?_))))
    by_cases hq : seqOk c q = true
    · simp only [endMove, hq, if_true] at h
      obtain ⟨st, h₁, h₂⟩ := chain_eq_next.1 h
      cases h₂
      exact ⟨q, st, rfl, hq, h₁, rfl⟩
    · simp [endMove, hq] at h
  | ackTimeout =>
    simp only [endMove] at h
    obtain ⟨st, h₁, h₂⟩ := chain_eq_next.1 h
    cases h₂
    exact .inr (.inr (.inr (.inr (.inr (.inl ⟨st, rfl, h₁, rfl⟩)))))
  | lose =>
    refine .inr (.inr (.inr (.inr (.inr (.inr (.inl ?_))))))
    cases hw : me.wire with
    | nil => simp [endMove, hw] at h
    | cons f rest =>
      simp only [endMove, hw] at h
      cases h
      exact ⟨f, rest, rfl, rfl, rfl⟩
  | damage r =>
    refine .inr (.inr (.inr (.inr (.inr (.inr (.inr ?_))))))
    cases hw : me.wire with
    | nil => simp [endMove, hw] at h
    | cons f rest =>
      simp only [endMove, hw] at h
      cases h
      exact ⟨r, f, rest, rfl, rfl, rfl⟩

/-- A move of the link that answers a next link is a move of one of its ends. -/
theorem linkMove_cases {w : Side} {m : LinkMove} {l l' : Link} (h : linkMove w m l = .next l') :
    (∃ e, w = .a ∧ endMove m l.a l.b = .next e ∧ l' = { cfg := l.cfg, a := e.1, b := e.2 }) ∨
    ∃ e, w = .b ∧ endMove m l.b l.a = .next e ∧ l' = { cfg := l.cfg, a := e.2, b := e.1 } := by
  cases w with
  | a =>
    obtain ⟨e, h₁, h₂⟩ := chain_eq_next.1 h
    cases h₂
    exact .inl ⟨e, rfl, h₁, rfl⟩
  | b =>
    obtain ⟨e, h₁, h₂⟩ := chain_eq_next.1 h
    cases h₂
    exact .inr ⟨e, rfl, h₁, rfl⟩

/-- A quiescent end with nothing coming in refuses every move but CHANNEL_READY. -/
theorem quiescent_end_refuses {m : LinkMove} {me peer : LinkEnd c} (hst : me.station.quiescent) (hs : me.supply = [])
    (hw : me.wire = []) (hp : peer.wire = []) (hm : m ≠ .channelReady) : ∃ e, endMove m me peer = .refused e := by
  obtain ⟨_, htimers, hack, _⟩ := hst
  cases m with
  | offer => exact ⟨.noSuchMove, by simp only [endMove, hs]⟩
  | offerNone => exact ⟨.noSuchMove, by simp only [endMove, hs]⟩
  | channelReady => exact absurd rfl hm
  | arrive => exact ⟨.noSuchMove, by simp only [endMove, hp]⟩
  | dataTimeout q =>
    by_cases hq : seqOk c q = true
    · refine ⟨.staleDataTimeout, ?_⟩
      simp [endMove, hq, onDataTimeout, timeoutResend, armedFor, htimers, endHandler]
    · exact ⟨.seqOutOfRange, by simp [endMove, hq]⟩
  | ackTimeout => exact ⟨.ackTimerDisarmed, by simp [endMove, onAckTimeout, hack]⟩
  | lose => exact ⟨.noSuchMove, by simp only [endMove, hw]⟩
  | damage r => exact ⟨.noSuchMove, by simp only [endMove, hw]⟩

/-- CHANNEL_READY changes nothing at an end with nothing outstanding whose channel has been ready before. -/
theorem quiescent_end_channelReady {me peer : LinkEnd c} (hst : me.station.quiescent) (hinv : me.station.Inv)
    (ho : me.station.outs = []) (hr : me.station.chReady = true) : endMove .channelReady me peer = .next (me, peer) := by
  have hn : me.station.nbuffered = 0 := hst.1
  have hg := hinv.gateLevel
  have hpos := c.nrBufs_pos
  clear hst hinv
  obtain ⟨st, supply, got, wire⟩ := me
  obtain ⟨ae, nfs, nb, ob, dt, fe, tf, arr, ib, atm, nn, cr, ien, os⟩ := st
  simp only [gateOpen] at hn hg ho hr
  subst hn ho hr
  have hi : ien = true := by simpa [hpos] using hg
  subst hi
  simp [endMove, onChannelReady, endHandler, setChReady, gate, gateOpen, LinkEnd.settle, delivered, transmitted, hpos]

end

/-- R290: in a quiescent link no move but CHANNEL_READY is there to make. -/
theorem quiescent_link_refuses {l : Link} (h : l.quiescent) (w : Side) {m : LinkMove} (hm : m ≠ .channelReady) :
    ∃ e, linkMove w m l = .refused e := by
  obtain ⟨ha, hb, hwa, hwb, hsa, hsb⟩ := h
  cases w with
  | a =>
    obtain ⟨e, he⟩ := quiescent_end_refuses ha hsa hwa hwb hm
    exact ⟨e, by simp [linkMove, he]⟩
  | b =>
    obtain ⟨e, he⟩ := quiescent_end_refuses hb hsb hwb hwa hm
    exact ⟨e, by simp [linkMove, he]⟩

/-- R290: and CHANNEL_READY changes nothing there, once each channel has been ready. -/
theorem quiescent_link_channelReady {l : Link} (h : l.quiescent) (hinv : l.StationsInv)
    (hoa : l.a.station.outs = []) (hob : l.b.station.outs = []) (hra : l.a.station.chReady = true)
    (hrb : l.b.station.chReady = true) (w : Side) : linkMove w .channelReady l = .next l := by
  cases w with
  | a => simp [linkMove, quiescent_end_channelReady h.1 hinv.1 hoa hra]
  | b => simp [linkMove, quiescent_end_channelReady h.2.1 hinv.2 hob hrb]

end Sys2Proof.Machine
end

