-- ==== Sys2Proof/Laws/Sender.lean ====
section
/-! SUPPORT. The Sender Window's operations: what each answers, and the `ACK_PROGRESS` loop as an iteration of its body. -/

namespace Sys2Proof.Machine
open Sys2Proof

variable {c : Config} (st : Station c)

/-- SUBMIT with room in the window (R160): the slot has just been written, so the transmission never stops. -/
theorem submit_next (p : Packet) (h : st.nbuffered.toNat < c.nrBufs) : submit p st = .next
    { st with
      outBuf := st.outBuf.write (seqSlot st.nextFrameToSend) p
      outs := st.outs ++ [.transmit (serializeFrame c ⟨.data, ackByte st, zext8 st.nextFrameToSend, p⟩)]
      dataTimer := (startDataTimer st.nextFrameToSend st).dataTimer
      nextFrameToSend := seqInc st.nextFrameToSend
      nbuffered := st.nbuffered + 1 } := by
  simp only [submit, if_pos h]
  rw [sendFrame_data (p := p) _ (read_write_self _ _ _)]
  rfl

theorem submit_full (p : Packet) (h : c.nrBufs ≤ st.nbuffered.toNat) : submit p st = .refused .windowFull := by
  simp only [submit, if_neg (Nat.not_lt.2 h)]

/-- TIMEOUT_RESEND of an armed number whose slot is written (R162). -/
theorem timeoutResend_next {q : Seq c} {p : Packet} (h : armedFor q st = true)
    (hp : st.outBuf.read (seqSlot q) = some p) : timeoutResend q st = .next
      { st with
        outs := st.outs ++ [.transmit (serializeFrame c ⟨.data, ackByte st, zext8 q, p⟩)]
        dataTimer := (startDataTimer q st).dataTimer } := by
  simp only [timeoutResend, h, if_true]
  rw [sendFrame_data st hp]
  rfl

/-- NAK_RESEND of an outstanding number whose slot is written (R163). -/
theorem nakResend_next {a : Seq c} {p : Packet}
    (h : seqBetween st.ackExpected (seqInc a) st.nextFrameToSend = true)
    (hp : st.outBuf.read (seqSlot (seqInc a)) = some p) : nakResend a st = .next
      { st with
        outs := st.outs ++ [.transmit (serializeFrame c ⟨.data, ackByte st, zext8 (seqInc a), p⟩)]
        dataTimer := (startDataTimer (seqInc a) st).dataTimer } := by
  simp only [nakResend, h, if_true]
  rw [sendFrame_data st hp]
  rfl

/-- NAK_RESEND of anything else (R163 corner cases). -/
theorem nakResend_idle {a : Seq c} (h : seqBetween st.ackExpected (seqInc a) st.nextFrameToSend = false) :
    nakResend a st = .next st := by
  simp [nakResend, h]

/-! ### The ACK_PROGRESS loop -/

/-- The loop is its body, some number of times (R161): so whatever the body keeps, the loop keeps. -/
theorem ackLoop_eq_iterate (a : Seq c) (k : Nat) : ∃ j ≤ k, ackLoop a k st = retireOldest^[j] st := by
  induction k generalizing st with
  | zero => exact ⟨0, Nat.le_refl _, rfl⟩
  | succ k ih =>
    rw [ackLoop]
    split
    · obtain ⟨j, hj, e⟩ := ih (retireOldest st)
      exact ⟨j + 1, by omega, by rw [e, Function.iterate_succ_apply]⟩
    · exact ⟨0, by omega, rfl⟩

/-! What `j` rounds of the loop's body leave in each register. -/

theorem ackExpected_retire_iterate (j : Nat) :
    (retireOldest^[j] st).ackExpected = st.ackExpected + BitVec.ofNat c.n j := by
  induction j with
  | zero => simp
  | succ j ih =>
    rw [Function.iterate_succ_apply', ackExpected_retireOldest, ih, seqInc_eq, BitVec.ofNat_add, BitVec.add_assoc]
    rfl

theorem nbuffered_retire_iterate (j : Nat) :
    (retireOldest^[j] st).nbuffered = st.nbuffered - BitVec.ofNat c.n j := by
  induction j with
  | zero => simp
  | succ j ih =>
    rw [Function.iterate_succ_apply', nbuffered_retireOldest, ih, BitVec.ofNat_add, ← BitVec.sub_sub]
    rfl

theorem nextFrameToSend_retire_iterate (j : Nat) :
    (retireOldest^[j] st).nextFrameToSend = st.nextFrameToSend := by
  induction j with
  | zero => rfl
  | succ j ih => rw [Function.iterate_succ_apply', nextFrameToSend_retireOldest, ih]

/-- The timers: the slots of the `j` oldest numbers are disarmed, and no timer's other fields change. -/
theorem dataTimer_retire_iterate (j : Nat) (i : Slot c) :
    ((retireOldest^[j] st).dataTimer.get i).seq = (st.dataTimer.get i).seq ∧
    ((retireOldest^[j] st).dataTimer.get i).remaining = (st.dataTimer.get i).remaining ∧
    (((retireOldest^[j] st).dataTimer.get i).armed = true ↔ (st.dataTimer.get i).armed = true ∧
      ∀ k, k < j → seqSlot (st.ackExpected + BitVec.ofNat c.n k) ≠ i) := by
  induction j with
  | zero => simp
  | succ j ih =>
    rw [Function.iterate_succ_apply', dataTimer_retireOldest, dataTimer_stopDataTimer, bank_get_set,
      ackExpected_retire_iterate]
    split
    · rename_i h
      refine ⟨by rw [← h]; exact ih.1, by rw [← h]; exact ih.2.1, ?_⟩
      simp only [Bool.false_eq_true, false_iff, not_and]
      intro _ hh
      exact hh j (by omega) h.symm
    · rename_i h
      refine ⟨ih.1, ih.2.1, ih.2.2.trans ⟨?_, ?_⟩⟩
      · rintro ⟨h1, h2⟩
        refine ⟨h1, fun k hk e => ?_⟩
        rcases Nat.lt_succ_iff_lt_or_eq.1 hk with h3 | h3
        · exact h2 k h3 e
        · subst h3
          exact h e.symm
      · rintro ⟨h1, h2⟩
        exact ⟨h1, fun k hk => h2 k (by omega)⟩

/-- A property that the body keeps wherever the loop's test holds, the loop keeps. -/
theorem ackLoop_induct (a : Seq c) (P : Station c → Prop)
    (hbody : ∀ st, seqBetween st.ackExpected a st.nextFrameToSend = true → P st → P (retireOldest st))
    (k : Nat) (h : P st) : P (ackLoop a k st) := by
  induction k generalizing st with
  | zero => exact h
  | succ k ih =>
    rw [ackLoop]
    split
    · exact ih _ (hbody st ‹_› h)
    · exact h

/-- Everything ACK_PROGRESS leaves alone (R161, R224): all but `ack_expected`, `nbuffered` and the data timers. -/
theorem ackProgress_frame (a : Seq c) : ackProgress a st =
    { st with
      ackExpected := (ackProgress a st).ackExpected
      nbuffered := (ackProgress a st).nbuffered
      dataTimer := (ackProgress a st).dataTimer } := by
  unfold ackProgress
  refine ackLoop_induct st a (fun t => t = { st with
      ackExpected := t.ackExpected, nbuffered := t.nbuffered, dataTimer := t.dataTimer }) ?_ c.M rfl
  intro t _ h
  rw [h]
  rfl

end Sys2Proof.Machine
end

