-- ==== Sys2Proof/Laws/Receiver.lean ====
section
/-! SUPPORT. The Receiver Window's operations: what each answers, and the induction the drain loop is used by. -/

namespace Sys2Proof.Machine
open Sys2Proof

variable {c : Config} (st : Station c)

/-- Step 1 by its test (R180); it never stops. -/
theorem onFrameDataStep1_cases (q : Seq c) : onFrameDataStep1 q st = .next
    (if q ≠ st.frameExpected ∧ st.noNak = true then
      { st with
        noNak := false
        outs := st.outs ++ [.transmit (serializeFrame c ⟨.nak, ackByte st, 0, []⟩)] }
    else startAckTimer st) := by
  unfold onFrameDataStep1
  split
  · rw [sendFrame_nak]
  · rfl

/-- Everything step 2 leaves alone (R181): all but the arrived bitmap and the input memory. -/
theorem onFrameDataStep2_frame (q : Seq c) (p : Packet) : onFrameDataStep2 q p st =
    { st with
      arrived := (onFrameDataStep2 q p st).arrived
      inBuf := (onFrameDataStep2 q p st).inBuf } := by
  unfold onFrameDataStep2
  split <;> rfl

/-- Step 2 keeps every marked slot written (R181: the mark and the packet are written together). -/
theorem onFrameDataStep2_arrivedWritten (q : Seq c) (p : Packet) (h : arrivedWritten st) :
    arrivedWritten (onFrameDataStep2 q p st) := by
  unfold onFrameDataStep2
  split
  · intro i hi
    by_cases e : i = seqSlot q
    · subst e
      rw [read_write_self]
      rfl
    · rw [read_write_ne _ _ e]
      exact h i (by rwa [bank_get_set_ne _ _ e] at hi)
  · exact h

/-- A property that the body keeps wherever the drain loop's test holds, the loop keeps. -/
theorem drainLoop_induct (P : Station c → Prop)
    (hbody : ∀ st p, st.arrived.get (seqSlot st.frameExpected) = true →
      st.inBuf.read (seqSlot st.frameExpected) = some p → P st → P (deliverExpected p st))
    (k : Nat) {st' : Station c} (h : P st) (hr : drainLoop k st = .next st') : P st' := by
  induction k generalizing st with
  | zero =>
    injection hr with hr
    exact hr ▸ h
  | succ k ih =>
    rw [drainLoop] at hr
    split at hr
    · rename_i ha
      split at hr
      · cases hr
      · rename_i p hp
        exact ih _ (hbody st p ha hp h) hr
    · injection hr with hr
      exact hr ▸ h

/-- The body of the drain loop keeps every marked slot written. -/
theorem deliverExpected_arrivedWritten (p : Packet) (h : arrivedWritten st) : arrivedWritten (deliverExpected p st) := by
  intro i hi
  rw [arrived_deliverExpected] at hi
  by_cases e : i = seqSlot st.frameExpected
  · subst e
    rw [bank_get_set_self] at hi
    cases hi
  · rw [bank_get_set_ne _ _ e] at hi
    exact h i hi

/-- With every marked slot written the drain loop never stops (R304 b). -/
theorem drainLoop_completes (k : Nat) (h : arrivedWritten st) : ∃ st', drainLoop k st = .next st' := by
  induction k generalizing st with
  | zero => exact ⟨st, rfl⟩
  | succ k ih =>
    rw [drainLoop]
    split
    · rename_i ha
      obtain ⟨p, hp⟩ := Option.isSome_iff_exists.1 (h _ ha)
      rw [hp]
      exact ih _ (deliverExpected_arrivedWritten st p h)
    · exact ⟨st, rfl⟩

/-- Everything the drain loop leaves alone (R182, R224): the sender's state, the input memory, the dispatcher's flags. -/
theorem drainLoop_frame (k : Nat) {st' : Station c} (hr : drainLoop k st = .next st') : st' =
    { st with
      frameExpected := st'.frameExpected, tooFar := st'.tooFar, arrived := st'.arrived
      ackTimer := st'.ackTimer, noNak := st'.noNak, outs := st'.outs } := by
  refine drainLoop_induct st (fun t => t = { st with
      frameExpected := t.frameExpected, tooFar := t.tooFar, arrived := t.arrived
      ackTimer := t.ackTimer, noNak := t.noNak, outs := t.outs }) ?_ k rfl hr
  intro t p _ _ h
  rw [h]
  rfl

end Sys2Proof.Machine
end

