-- ==== Sys2Proof/Laws/Step.lean ====
section
/-! SUPPORT. What a step is: idle, or one operation on the machine with the word taken. Every proof about `step` cites
these and then reasons about one `exec`. -/

namespace Sys2Proof.Machine
open Sys2Proof

/-- Only the operations with an encoding are ever decoded (R101): frames, events and Sequence Space selects. -/
theorem decode_encodable {c : Config} {w : Presented} {i : Instr} (h : decode c w = .instr i) :
    (encode c i).isSome = true := by
  unfold decode at h
  split at h
  · unfold decodeChannel at h
    split at h
    · rename_i f _
      cases h
      obtain ⟨k, _, _, _⟩ := f
      cases k <;> rfl
    · cases h
  · unfold decodeEvent at h
    split at h
    · cases h
    · split at h
      · unfold decodeNewPacket at h
        repeat' split at h
        all_goals cases h
        all_goals rfl
      · unfold decodeSeq0 at h
        split at h <;> cases h
        rfl
      · unfold decodeArrival at h
        repeat' split at h
        all_goals cases h
        all_goals rfl
      · unfold decodeSeq1 at h
        repeat' split at h
        all_goals cases h
        all_goals rfl
      · unfold decodeSeq0 at h
        split at h <;> cases h
        rfl
      · cases h
  · unfold decodeSelect at h
    split at h
    · cases h
    · split at h
      all_goals try unfold decodeSeq1 at h
      all_goals try unfold decodeSeq2 at h
      all_goals try unfold decodeSeq3 at h
      all_goals repeat' split at h
      all_goals cases h
      all_goals rfl

/-- A step that answers a next state is idle, or is one decodable operation, or is FRAME_ARRIVED with a corrupt string. -/
theorem step_cases {s t : State} (h : step s = .next t) :
    (s.inbox = [] ∧ t = s) ∨
    ∃ (w : Presented) (rest : List Presented) (i : Instr), s.inbox = w :: rest ∧
      (decode s.cfg w = .instr i ∨ decode s.cfg w = .rejected .corruptFrame ∧ i = .frameArrived (some w.bytes)) ∧
      exec i { s with inbox := rest } = .next t := by
  unfold step at h
  split at h
  · rename_i hi
    cases h
    exact .inl ⟨hi, rfl⟩
  · rename_i w rest hi
    unfold runDecoded at h
    split at h
    · rename_i i hd
      exact .inr ⟨w, rest, i, hi, .inl hd, h⟩
    · rename_i hd
      exact .inr ⟨w, rest, _, hi, .inr ⟨hd, rfl⟩, h⟩
    · cases h

/-- The same for a fault. -/
theorem step_fault_cases {s : State} {f : Fault} (h : step s = .fault f) :
    ∃ (w : Presented) (rest : List Presented) (i : Instr), s.inbox = w :: rest ∧
      (decode s.cfg w = .instr i ∨ decode s.cfg w = .rejected .corruptFrame ∧ i = .frameArrived (some w.bytes)) ∧
      exec i { s with inbox := rest } = .fault f := by
  unfold step at h
  split at h
  · cases h
  · rename_i w rest hi
    unfold runDecoded at h
    split at h
    · rename_i i hd
      exact ⟨w, rest, i, hi, .inl hd, h⟩
    · rename_i hd
      exact ⟨w, rest, _, hi, .inr ⟨hd, rfl⟩, h⟩
    · cases h

end Sys2Proof.Machine
end

