-- ==== Sys2Proof/Tests/Slice0.lean ====
section
/-! SUPPORT. The model's own tests. Expected values are the vectors of spec/95_test_vectors.md (T, V and P numbers) and
the examples in the rules, at their configuration: `n = 3`, `PKT_MAX = 8`, `CK_XOR8`. One step each, on a small state. -/

namespace Sys2Proof.Tests
open Sys2Proof Sys2Proof.Machine

/-! ### Helpers -/

abbrev R : Config := Config.reference

/-- A machine around a station of the reference instance. -/
def at3 (st : Station R) : State := { cfg := R, station := st, inbox := [], ret := .none }

/-- A look at the next state; none where there is none. -/
def look {α : Type} (r : Result State) (f : State → α) : Option α :=
  match r with
  | .next s => some (f s)
  | .fault _ => none
  | .refused _ => none

/-- The refusal answered, if any. -/
def why {σ : Type} (r : Result σ) : Option Refusal :=
  match r with
  | .next _ => none
  | .fault _ => none
  | .refused e => some e

/-- The fault answered, if any. -/
def blame {σ : Type} (r : Result σ) : Option Fault :=
  match r with
  | .next _ => none
  | .fault e => some e
  | .refused _ => none

/-- The sender's registers, as numbers: `ae nfs nb`. -/
def sender (s : State) : List Nat :=
  [s.station.ackExpected.toNat, s.station.nextFrameToSend.toNat, s.station.nbuffered.toNat]

/-- The receiver's registers, as numbers: `fe tf`. -/
def receiver (s : State) : List Nat := [s.station.frameExpected.toNat, s.station.tooFar.toNat]

/-- The data timers by slot: none where disarmed. -/
def timers (s : State) : List (Option Nat) :=
  s.station.dataTimer.toList.map fun t => if t.armed then some t.seq.toNat else none

def arr (s : State) : List Bool := s.station.arrived.toList

/-- `at nn chr in` -/
def bits (s : State) : List Bool :=
  [s.station.ackTimer.armed, s.station.noNak, s.station.chReady, s.station.intakeEn]

def s0 : Station R := Station.reset R

/-- Reset, after CHRDY. -/
def sReady : Station R := { s0 with chReady := true, intakeEn := true }

def armed (q : Nat) : DataTimer R := ⟨true, BitVec.ofNat 3 q, 1⟩
def off : DataTimer R := ⟨false, 0, 0⟩

/-- S4: frames 6, 7, 0 outstanding. -/
def s4 : Station R :=
  { sReady with
    ackExpected := 6#3, nextFrameToSend := 1#3, nbuffered := 3#3
    outBuf := #v[some [0x50, 0x30], none, some [0x50, 0x36], some [0x50, 0x37]]
    dataTimer := #v[armed 0, off, armed 6, armed 7] }

/-- S4b: frames 5, 6 outstanding, three packets delivered the other way. -/
def s4b : Station R :=
  { sReady with
    ackExpected := 5#3, nextFrameToSend := 7#3, nbuffered := 2#3
    outBuf := #v[none, some [0x50, 0x35], some [0x50, 0x36], none]
    dataTimer := #v[off, armed 5, armed 6, off]
    frameExpected := 3#3, tooFar := 7#3 }

/-- After V4.7: frames 5, 6, 7, 0 outstanding, gate closed. -/
def sFull : Station R :=
  { s4b with
    nextFrameToSend := 1#3, nbuffered := 4#3, intakeEn := false
    outBuf := #v[some [0x50, 0x30], some [0x50, 0x35], some [0x50, 0x36], some [0x50, 0x37]]
    dataTimer := #v[armed 0, armed 5, armed 6, armed 7] }

/-- S5: six deliveries made. -/
def s5 : Station R := { s0 with frameExpected := 6#3, tooFar := 2#3 }

/-- S5 after V5.1: frame 1 stored, a NAK sent. -/
def s5a : Station R :=
  { s5 with
    noNak := false, arrived := #v[false, true, false, false], inBuf := #v[none, some [0x50, 0x31], none, none] }

/-- S5 after V5.6: frames 0, 1, 7 stored. -/
def s5f : Station R :=
  { s5 with
    noNak := false, arrived := #v[true, true, false, true]
    inBuf := #v[some [0x50, 0x30], some [0x50, 0x31], none, some [0x50, 0x37]] }

/-! ### WellFormed: an ill-formed term for each check -/

theorem test_wf_seq_range : (Instr.inc 8).wf R = false ∧ (Instr.inc 7).wf R = true := by decide
theorem test_wf_packet_length :
    (Instr.submit (List.replicate 9 0)).wf R = false ∧ (Instr.submit (List.replicate 8 0)).wf R = true := by decide
theorem test_wf_frame_ack_range : (Instr.ack 8 0).wf R = false := by decide
theorem test_wf_frame_seq_range : (Instr.data 1 9 [0x41, 0x42]).wf R = false := by decide
theorem test_wf_frame_payload_only_in_data : (Instr.serialize ⟨.nak, 1, 0, [0]⟩).wf R = false := by decide
theorem test_wf_on_frame_data_kind : (Instr.onFrameData ⟨.ack, 1, 0, []⟩).wf R = false := by decide
theorem test_wf_parse_length : (Instr.parse [2, 5, 0]).wf R = false := by decide

/-! ### Decode: a word of the spec's encodings for each row that has one -/

/-- V3.1 -/
theorem test_decode_data :
    decode R ⟨.channel, [0x01, 0x07, 0x00, 0x50, 0x30, 0x66]⟩ = .instr (.data 7 0 [0x50, 0x30]) := by decide
/-- V3.4 -/
theorem test_decode_ack : decode R ⟨.channel, [0x02, 0x05, 0x00, 0x07]⟩ = .instr (.ack 5 0) := by decide
/-- V3.5 -/
theorem test_decode_nak : decode R ⟨.channel, [0x03, 0x01, 0x00, 0x02]⟩ = .instr (.nak 1 0) := by decide
/-- V3.9 -/
theorem test_decode_bad_residue : decode R ⟨.channel, [0x02, 0x04, 0x00, 0x07]⟩ = .rejected .corruptFrame := by decide
/-- R99: the five codes 0 to 4, and no sixth. -/
theorem test_decode_new_packet : decode R ⟨.event, [0x00, 0x01, 0x50, 0x30]⟩ = .instr (.newPacketReady (some [0x50, 0x30])) := by decide
theorem test_decode_new_packet_none : decode R ⟨.event, [0x00, 0x00]⟩ = .instr (.newPacketReady none) := by decide
theorem test_decode_channel_ready : decode R ⟨.event, [0x01]⟩ = .instr .channelReady := by decide
theorem test_decode_frame_arrived : decode R ⟨.event, [0x02, 0x01, 0x03]⟩ = .instr (.frameArrived (some [0x03])) := by decide
theorem test_decode_data_timeout : decode R ⟨.event, [0x03, 0x05]⟩ = .instr (.dataTimeout 5) := by decide
theorem test_decode_ack_timeout : decode R ⟨.event, [0x04]⟩ = .instr .ackTimeout := by decide
theorem test_decode_no_sixth_event : decode R ⟨.event, [0x05]⟩ = .rejected .reservedEventCode := by decide
/-- R100: `000` to `101`; `110` and `111` select nothing. -/
theorem test_decode_inc : decode R ⟨.select, [0b000, 6]⟩ = .instr (.inc 6) := by decide
theorem test_decode_pred : decode R ⟨.select, [0b001, 0]⟩ = .instr (.pred 0) := by decide
theorem test_decode_addw : decode R ⟨.select, [0b010, 6]⟩ = .instr (.addw 6) := by decide
theorem test_decode_slot : decode R ⟨.select, [0b011, 5]⟩ = .instr (.slot 5) := by decide
theorem test_decode_dist : decode R ⟨.select, [0b100, 6, 1]⟩ = .instr (.dist 6 1) := by decide
theorem test_decode_between : decode R ⟨.select, [0b101, 6, 7, 1]⟩ = .instr (.between 6 7 1) := by decide
theorem test_decode_select_110 : decode R ⟨.select, [0b110, 6]⟩ = .rejected .reservedSelect := by decide
theorem test_decode_operand_range : decode R ⟨.select, [0b000, 8]⟩ = .rejected .seqOutOfRange := by decide
theorem test_decode_long_packet :
    decode R ⟨.event, 0 :: 1 :: List.replicate 9 0⟩ = .rejected .packetTooLong := by decide

/-- Words of the opcode table: the three frame rows, and the events whose code is no frame kind. -/
theorem test_table_words :
    decodeTableWord 8 1 = some (.data 0 0 []) ∧ decodeTableWord 8 2 = some (.ack 0 0) ∧
    decodeTableWord 8 3 = some (.nak 0 0) ∧ decodeTableWord 8 0 = some (.newPacketReady none) ∧
    decodeTableWord 8 4 = some .ackTimeout ∧ decodeTableWord 8 5 = some (.between 0 0 0) := by decide

/-! ### Sequence Space (V2) -/

/-- V2.1 -/
theorem test_inc_wraps : look (exec (.inc 7) (at3 s0)) (·.ret) = some (.num 0) := by decide
/-- V2.2 -/
theorem test_pred_wraps : look (exec (.pred 0) (at3 s0)) (·.ret) = some (.num 7) := by decide
/-- V2.3 -/
theorem test_addw_wraps : look (exec (.addw 6) (at3 s0)) (·.ret) = some (.num 2) := by decide
/-- V2.4 -/
theorem test_slot : look (exec (.slot 5) (at3 s0)) (·.ret) = some (.num 1) := by decide
/-- V2.5 -/
theorem test_dist_wraps : look (exec (.dist 6 1) (at3 s0)) (·.ret) = some (.num 3) := by decide
/-- V2.10: the interval wraps, `b` after the wrap. -/
theorem test_between_wraps : look (exec (.between 6 0 1) (at3 s0)) (·.ret) = some (.bit true) := by decide
/-- V2.10: the upper edge is excluded (C1). -/
theorem test_between_upper_edge : look (exec (.between 2 5 5) (at3 s0)) (·.ret) = some (.bit false) := by decide
/-- V2.9: 224 of 512 tuples at `M = 8`. -/
theorem test_between_count :
    ((List.range 8).map fun a => ((List.range 8).map fun b => (List.range 8).countP fun d =>
      seqBetween (c := R) (BitVec.ofNat 3 a) (BitVec.ofNat 3 b) (BitVec.ofNat 3 d)).sum).sum = 224 := by decide +kernel
theorem test_operand_out_of_range : why (exec (.inc 8) (at3 s0)) = some .seqOutOfRange := by decide

/-! ### Frame Codec (V3) -/

/-- R140 example: `frame_expected = 0`, `out_buf[2] = 50 32`. -/
theorem test_build_data :
    look (exec (.build .data 2) (at3 { s0 with outBuf := #v[none, none, some [0x50, 0x32], none] })) (·.ret)
      = some (.frame ⟨.data, 7, 2, [0x50, 0x32]⟩) := by decide
/-- U6 -/
theorem test_build_unwritten : blame (exec (.build .data 2) (at3 s0)) = some (.unwrittenOutSlot 2) := by decide
/-- V3.2 -/
theorem test_serialize :
    look (exec (.serialize ⟨.data, 1, 2, [0x41, 0x42]⟩) (at3 s0)) (·.ret)
      = some (.bytes [0x01, 0x01, 0x02, 0x41, 0x42, 0x01]) := by decide
/-- R142 -/
theorem test_piggyback : look (exec .piggyback (at3 s5)) (·.ret) = some (.num 5) := by decide
/-- V3.17: the `seq` byte of an ACK is ignored. -/
theorem test_validate_ack_seq :
    look (exec (.validate (some [0x02, 0x05, 0x05, 0x02])) (at3 s0)) (·.ret) = some (.frame ⟨.ack, 5, 5, []⟩) := by decide
/-- V3.12 -/
theorem test_validate_ack_range :
    look (exec (.validate (some [0x02, 0x08, 0x00, 0x0A])) (at3 s0)) (·.ret) = some .corruptionError := by decide
/-- V3.6 -/
theorem test_parse_max_len :
    look (exec (.parse [0x01, 0x07, 0x07, 0, 1, 2, 3, 4, 5, 6, 7, 0x01]) (at3 s0)) (·.ret)
      = some (.frame ⟨.data, 7, 7, [0, 1, 2, 3, 4, 5, 6, 7]⟩) := by decide
theorem test_parse_too_short : why (exec (.parse [2, 5, 0]) (at3 s0)) = some .stringTooShort := by decide
/-- V3.14, V3.15 -/
theorem test_malformed_lengths :
    look (exec (.validateMalformed 2 5 0 5) (at3 s0)) (·.ret) = some (.bit true) ∧
    look (exec (.validateMalformed 1 1 2 13) (at3 s0)) (·.ret) = some (.bit true) ∧
    look (exec (.validateMalformed 1 1 2 12) (at3 s0)) (·.ret) = some (.bit false) := by decide

/-! ### Sender Window (V4) -/

/-- V4.6: the wrap at submission, and the piggyback value `PRED(3)`. -/
theorem test_submit :
    look (exec (.submit [0x50, 0x37]) (at3 s4b)) (fun t => (t.station.outs, sender t, timers t))
      = some ([.transmit [0x01, 0x02, 0x07, 0x50, 0x37, 0x63]], [5, 0, 3], [none, some 5, some 6, some 7]) := by decide
theorem test_submit_closed : why (exec (.submit [0x50, 0x34]) (at3 sFull)) = some .intakeClosed := by decide
/-- R161 example. -/
theorem test_ack_progress :
    look (exec (.ackProgress 7) (at3 s4)) (fun t => (sender t, timers t))
      = some ([0, 1, 1], [some 0, none, none, none]) := by decide
/-- V4.2: `ack = next_frame_to_send` names a frame never sent. -/
theorem test_ack_progress_upper_edge : look (exec (.ackProgress 1) (at3 s4)) sender = some [6, 1, 3] := by decide
/-- V4.8 -/
theorem test_timeout_resend :
    look (exec (.timeoutResend 5) (at3 sFull)) (fun t => (t.station.outs, sender t))
      = some ([.transmit [0x01, 0x02, 0x05, 0x50, 0x35, 0x63]], [5, 1, 4]) := by decide
/-- Slot 0 of S4 is armed for 0, not for 4. -/
theorem test_timeout_resend_stale : why (exec (.timeoutResend 4) (at3 s4)) = some .staleDataTimeout := by decide
/-- V4.3 -/
theorem test_nak_resend :
    look (exec (.nakResend 5) (at3 s4)) (fun t => (t.station.outs, sender t))
      = some ([.transmit [0x01, 0x07, 0x06, 0x50, 0x36, 0x66]], [6, 1, 3]) := by decide
/-- V4.5: the target is the upper edge. -/
theorem test_nak_resend_nothing : look (exec (.nakResend 0) (at3 s4)) (·.station.outs) = some [] := by decide

/-! ### Receiver Window (V5) -/

/-- V5.1 -/
theorem test_step1_nak :
    look (exec (.onFrameDataStep1 1) (at3 s5)) (fun t => (t.station.outs, bits t))
      = some ([.transmit [0x03, 0x05, 0x00, 0x06]], [false, false, false, false]) := by decide
/-- V5.2: `no_nak = 0`, the ack timer instead. -/
theorem test_step1_ack_timer :
    look (exec (.onFrameDataStep1 2) (at3 s5a)) (fun t => (t.station.outs, bits t))
      = some ([], [true, false, false, false]) := by decide
/-- V5.1: in the window across the wrap. -/
theorem test_step2_stores :
    look (exec (.onFrameDataStep2 1 [0x50, 0x31]) (at3 s5)) (fun t => (arr t, t.station.inBuf.toList))
      = some ([false, true, false, false], [none, some [0x50, 0x31], none, none]) := by decide
/-- V5.4: the first copy is kept. -/
theorem test_step2_keeps_first :
    look (exec (.onFrameDataStep2 1 [0x58, 0x58]) (at3 s5a)) (·.station.inBuf.toList)
      = some [none, some [0x50, 0x31], none, none] := by decide
/-- V5.7, the drain alone. -/
theorem test_step3_drains :
    look (exec .onFrameDataStep3
        (at3 { s5f with arrived := #v[true, true, true, true], inBuf := s5f.inBuf.set 2 (some [0x50, 0x36]) }))
      (fun t => (t.station.outs, receiver t, arr t))
      = some ([.deliver [0x50, 0x36], .deliver [0x50, 0x37], .deliver [0x50, 0x30], .deliver [0x50, 0x31]],
          [2, 6], [false, false, false, false]) := by decide
theorem test_step3_unwritten :
    blame (exec .onFrameDataStep3 (at3 { s5 with arrived := #v[false, false, true, false] }))
      = some (.unwrittenInSlot 2) := by decide
/-- V5.7 -/
theorem test_on_frame_data :
    look (exec (.onFrameData ⟨.data, 7, 6, [0x50, 0x36]⟩) (at3 s5f)) (fun t => (deliverCount t.station.outs, receiver t, bits t))
      = some (4, [2, 6], [true, true, false, false]) := by decide

/-! ### Timers and NAK suppression (V6) -/

/-- R200 example. -/
theorem test_start_data_timer :
    look (exec (.startDataTimer 5) (at3 s0)) timers = some [none, some 5, none, none] := by decide
/-- R201 example. -/
theorem test_stop_data_timer :
    look (exec (.stopDataTimer 6) (at3 s4)) timers = some [some 0, none, none, some 7] := by decide
theorem test_start_ack_timer :
    look (exec .startAckTimer (at3 s0)) (·.station.ackTimer) = some ⟨true, R.ackTimerDuration⟩ := by decide
theorem test_stop_ack_timer :
    look (exec .stopAckTimer (at3 { s0 with ackTimer := ⟨true, 1⟩ })) (·.station.ackTimer.armed) = some false := by decide
/-- R226 example bytes, sent without the event. -/
theorem test_send_frame_ack :
    look (exec (.sendFrame .ack 0) (at3 s5)) (·.station.outs) = some [.transmit [0x02, 0x05, 0x00, 0x07]] := by decide
/-- R205 -/
theorem test_send_frame_nak :
    look (exec .sendFrameNak (at3 s0)) (fun t => (t.station.outs, t.station.noNak))
      = some ([.transmit [0x03, 0x07, 0x00, 0x04]], false) := by decide
/-- R207 example, `frame_expected = 2`. -/
theorem test_corrupt_nak :
    look (exec .corruptNak (at3 { s0 with frameExpected := 2#3, tooFar := 6#3 })) (fun t => (t.station.outs, t.station.noNak))
      = some ([.transmit [0x03, 0x01, 0x00, 0x02]], false) := by decide
/-- V6.3 -/
theorem test_corrupt_nak_once : look (exec .corruptNak (at3 s5a)) (·.station.outs) = some [] := by decide
/-- R230 example. -/
theorem test_gate_closes :
    look (exec .gate (at3 { sFull with intakeEn := true })) (fun t => (t.station.outs, t.station.intakeEn))
      = some ([.intake false], false) := by decide

/-! ### Events and frames -/

/-- V4.7: the `NR_BUFS`-th submission closes the gate (T4). -/
theorem test_new_packet_closes_gate :
    look (exec (.newPacketReady (some [0x50, 0x30])) (at3 { s4b with
        nextFrameToSend := 0#3, nbuffered := 3#3, dataTimer := #v[off, armed 5, armed 6, armed 7] }))
      (fun t => (t.station.outs, sender t, bits t))
      = some ([.transmit [0x01, 0x02, 0x00, 0x50, 0x30, 0x63], .intake false], [5, 1, 4], [false, true, true, false]) := by decide
/-- P1: before CHRDY a NEW is refused. -/
theorem test_new_packet_refused : why (exec (.newPacketReady (some [0x50, 0x30])) State.reset) = some .intakeClosed := by decide
/-- R223 example. -/
theorem test_channel_ready :
    look (exec .channelReady State.reset) (fun t => (t.station.outs, bits t))
      = some ([.intake true], [false, true, true, true]) := by decide
/-- P2: the damaged first copy of frame 0. -/
theorem test_frame_arrived_corrupt :
    look (exec (.frameArrived (some [0x01, 0x07, 0x00, 0x51, 0x30, 0x66])) State.reset) (fun t => (t.station.outs, bits t))
      = some ([.transmit [0x03, 0x07, 0x00, 0x04], .intake false], [false, false, false, false]) := by decide
/-- V4.10: the piggyback value is the one current at the resend. -/
theorem test_data_timeout :
    look (exec (.dataTimeout 6) (at3 { sFull with frameExpected := 4#3, tooFar := 0#3 })) (·.station.outs)
      = some [.transmit [0x01, 0x03, 0x06, 0x50, 0x36, 0x62], .intake false] := by decide
theorem test_data_timeout_stale : why (exec (.dataTimeout 4) (at3 s4)) = some .staleDataTimeout := by decide
/-- V6.7 -/
theorem test_ack_timeout :
    look (exec .ackTimeout (at3 { s0 with frameExpected := 3#3, tooFar := 7#3, ackTimer := ⟨true, 1⟩, noNak := false }))
      (fun t => (t.station.outs, bits t))
      = some ([.transmit [0x02, 0x02, 0x00, 0x00], .intake false], [false, false, false, false]) := by decide
theorem test_ack_timeout_disarmed : why (exec .ackTimeout (at3 s4)) = some .ackTimerDisarmed := by decide
/-- V4.9: in order at the receiver, a stale ack at the sender. -/
theorem test_data_frame :
    look (exec (.data 4 3 [0xC3]) (at3 sFull)) (fun t => (t.station.outs, sender t, receiver t))
      = some ([.deliver [0xC3], .intake false], [5, 1, 4], [4, 0]) := by decide
/-- V4.11: one cumulative ack retires four frames and reopens the gate. -/
theorem test_ack_frame :
    look (exec (.ack 0 0) (at3 sFull)) (fun t => (t.station.outs, sender t, timers t))
      = some ([.intake true], [1, 1, 0], [none, none, none, none]) := by decide
/-- V4.4: a NAK also acknowledges. -/
theorem test_nak_frame :
    look (exec (.nak 6 0) (at3 s4)) (fun t => (t.station.outs, sender t, timers t))
      = some ([.transmit [0x01, 0x07, 0x07, 0x50, 0x37, 0x66], .intake true], [7, 1, 2],
          [some 0, none, none, some 7]) := by decide

/-! ### The step -/

/-- R290: nothing outstanding, no timer armed, nothing buffered. -/
theorem test_reset_quiescent : s0.quiescent ∧ ¬s4.quiescent := by
  unfold Station.quiescent
  decide
theorem test_step_idle : look (step State.reset) (fun t => decide (t = State.reset)) = some true := by decide
/-- V6.1, by the channel port. -/
theorem test_step_channel :
    look (step { State.reset with inbox := [⟨.channel, [0x01, 0x07, 0x01, 0x50, 0x31, 0x66]⟩] })
      (fun t => (t.inbox, t.station.outs, arr t))
      = some ([], [.transmit [0x03, 0x07, 0x00, 0x04], .intake false], [false, true, false, false]) := by decide
theorem test_step_undecodable :
    why (step { State.reset with inbox := [⟨.event, [0x05]⟩] }) = some (.undecodable .reservedEventCode) := by decide
theorem test_step_fetch_word :
    look (step (State.reset.withFetchWord 8 2)) (fun t => (t.inbox, t.station.outs)) = some ([], [.intake false]) := by decide

/-! ### The link -/

/-- P5, the first frame of A to B. -/
theorem test_link_first_packet :
    (match linkRun [(.a, .channelReady), (.a, .offer), (.b, .arrive)] (linkReset R [[0xA0]] []) with
      | .next l => some (l.b.got, l.a.supply, l.a.wire)
      | .fault _ => none
      | .refused _ => none) = some ([[0xA0]], [], []) := by decide

/-! ### Witnesses: for each statement with hypotheses, a state and operands that meet them together -/

/-- A sequence number of the reference instance. -/
def sq (k : Nat) : Seq R := BitVec.ofNat R.n k

/-- The operation takes a next state. -/
def runs (r : Result State) : Bool := (look r fun _ => ()).isSome

/-- S4 with its invariants: three frames outstanding across the wrap. -/
theorem inv_s4 : (at3 s4).Inv where
  occupancy := by decide
  bounded := by decide
  window := by decide
  timersArmed := by unfold outstanding; decide +kernel
  timersSeq := by unfold outstanding; decide +kernel
  expectedMissing := by decide
  outWritten := by unfold outstanding; decide +kernel
  inWritten := by decide
  gateLevel := by decide
  outFits := by decide
  inFits := by decide

/-- S5 after V5.6, gate open or not: three frames stored, `no_nak = 0`. -/
theorem inv_s5f : (at3 s5f).Inv where
  occupancy := by decide
  bounded := by decide
  window := by decide
  timersArmed := by unfold outstanding; decide +kernel
  timersSeq := by unfold outstanding; decide +kernel
  expectedMissing := by decide
  outWritten := by unfold outstanding; decide +kernel
  inWritten := by decide
  gateLevel := by decide
  outFits := by decide
  inFits := by decide

theorem ckSound_R : R.CkSound := ckSound_xor8 rfl

/-- S4 with the ack timer armed, so that each of the five events is enabled. -/
def s4all : Station R := { s4 with ackTimer := ⟨true, 1⟩ }

theorem inv_s4all : (at3 s4all).Inv := ⟨inv_s4.1, inv_s4.2, inv_s4.3, inv_s4.4, inv_s4.5, inv_s4.6, inv_s4.7, inv_s4.8,
  inv_s4.9, inv_s4.10, inv_s4.11⟩

/-- SequenceUnitAnswersItsFormulas: both ends of the range. -/
theorem witness_sequence_unit : (7#8).toNat ≤ (at3 s0).cfg.maxSeq ∧ (0#8).toNat ≤ (at3 s0).cfg.maxSeq := by decide
/-- BetweenAnswersTheThreeOrderings: each of the three orderings. -/
theorem witness_between :
    seqBetween (sq 2) (sq 3) (sq 5) = true ∧ seqBetween (sq 6) (sq 7) (sq 1) = true ∧
    seqBetween (sq 6) (sq 0) (sq 1) = true := by decide
/-- BetweenRotatesAdvancesAndSplits: true with `b ≠ a`, true with `b = a`, and `a ≠ d`. -/
theorem witness_between_laws :
    seqBetween (sq 6) (sq 7) (sq 1) = true ∧ sq 7 ≠ sq 6 ∧ seqBetween (sq 6) (sq 6) (sq 1) = true ∧ sq 6 ≠ sq 1 := by decide
/-- LiveNumbersHaveDistinctSlots: each clause at the last of its numbers, 0 in S4 and 1 in S5. -/
theorem witness_live_numbers :
    ((sq 2 - sq 7 : Seq R).toNat < R.nrBufs) ∧ s4.Inv ∧ outstanding s4 (sq 0) ∧
    s5f.Inv ∧ seqBetween s5f.frameExpected (sq 1) s5f.tooFar = true := ⟨by decide, inv_s4, by unfold outstanding; decide, inv_s5f, by decide⟩
/-- SlotReadAfterWrite: another slot, and a packet of full length. -/
theorem witness_slot_write :
    seqSlot (sq 3) ≠ seqSlot (sq 0) ∧ s4.outBuf.wf = true ∧ (List.replicate 8 0#8).length ≤ R.pktMax := by decide
/-- BuildAnswersTheFrame, UnwrittenSlotsFault: a written slot and an unwritten one, by the largest number. -/
theorem witness_build :
    (7#8).toNat ≤ R.maxSeq ∧ s4.outBuf.read (seqSlot (sq 7)) = some [0x50, 0x37] ∧
    s0.outBuf.read (seqSlot (sq 7)) = none := by decide
/-- SerializeLaysOutAndChecksums: fields and payload at their limits. -/
theorem witness_serialize : (7#8).toNat ≤ R.maxSeq ∧ (List.replicate 8 0#8).length ≤ R.pktMax := by decide
/-- ValidateTestsLengthAndResidue: short; bad residue; good, at exactly `MIN_LEN`. -/
theorem witness_validate :
    [2#8, 5, 0].length < R.minLen ∧ R.residue [2, 4, 0, 7] ≠ 0 ∧ R.minLen ≤ [2#8, 5, 0, 7].length ∧
    R.residue [2, 5, 0, 7] = 0 := by decide
/-- ParseExtractsTheFields: malformed, and well formed with the longest payload. -/
theorem witness_parse :
    [1#8].length = R.ckLen ∧ malformed R 2 8 0 (R.minLen + 0) = true ∧ malformed R 1 7 7 (R.minLen + 8) = false := by decide
/-- ValidateOfSerializeIsTheFrame -/
theorem witness_round_trip :
    R.CkSound ∧ (7#8).toNat ≤ R.maxSeq ∧ (List.replicate 8 0#8).length ≤ R.pktMax := ⟨ckSound_R, by decide, by decide⟩
/-- PortsDecodeOnlyEncodings, FrameArrivedIsTheFrameItCarries: one frame of each kind, an event, a select. -/
theorem witness_channel :
    decode R ⟨.channel, [1, 7, 0, 0x50, 0x30, 0x66]⟩ = .instr (.data 7 0 [0x50, 0x30]) ∧
    decode R ⟨.channel, [2, 5, 0, 7]⟩ = .instr (.ack 5 0) ∧ decode R ⟨.channel, [3, 1, 0, 2]⟩ = .instr (.nak 1 0) ∧
    decode R ⟨.event, [3, 7]⟩ = .instr (.dataTimeout 7) ∧ decode R ⟨.select, [4, 7, 0]⟩ = .instr (.dist 7 0) ∧
    5 ≤ (5#8).toNat ∧ 6 ≤ (6#8).toNat := by decide
/-- DecodeOfEncodeIsTheOperation: an operation of each port. -/
theorem witness_encode :
    R.CkSound ∧ (Instr.data 7 7 []).wf R = true ∧ encode R (.data 7 7 []) = some ⟨.channel, [1, 7, 7, 1]⟩ ∧
    (Instr.dataTimeout 7).wf R = true ∧ encode R (.dataTimeout 7) = some ⟨.event, [3, 7]⟩ ∧
    (Instr.between 7 0 7).wf R = true ∧ encode R (.between 7 0 7) = some ⟨.select, [5, 7, 0, 7]⟩ :=
  ⟨ckSound_R, by decide, by decide, by decide, by decide, by decide, by decide⟩
/-- SubmitStoresSendsAndArms, CallsAgainstTheirPreconditionHaveNoStep: closed; full with the gate open (a state no run reaches); the last place in the window. -/
theorem witness_submit :
    sFull.intakeEn = false ∧ R.nrBufs ≤ sFull.nbuffered.toNat ∧ s4.intakeEn = true ∧ s4.nbuffered.toNat + 1 = R.nrBufs ∧
    (List.replicate 8 0#8).length ≤ R.pktMax := by decide
/-- AckProgressRetiresUpToAck: the upper edge changes nothing; the last outstanding number retires all. -/
theorem witness_ack_progress :
    (s4.nextFrameToSend - s4.ackExpected).toNat ≤ (sq 1 - s4.ackExpected : Seq R).toNat ∧
    (sq 0 - s4.ackExpected : Seq R).toNat < (s4.nextFrameToSend - s4.ackExpected).toNat := by decide
/-- TimeoutResendsOneFrame, DataTimeoutIsResendThenGate, UnwrittenSlotsFault: armed for 0, not for 4; written, and armed over a slot never written. -/
theorem witness_timeout :
    (s4.dataTimer.get (seqSlot (sq 0))).armed = true ∧ (s4.dataTimer.get (seqSlot (sq 0))).seq = sq 0 ∧
    (s4.dataTimer.get (seqSlot (sq 4))).seq ≠ sq 4 ∧
    s4.outBuf.read (seqSlot (sq 0)) = some [0x50, 0x30] ∧
    ({ s4 with outBuf := s0.outBuf } : Station R).outBuf.read (seqSlot (sq 0)) = none := by decide
/-- NakResendsTheSuccessor, UnwrittenSlotsFault: `ack = 7` has the successor 0, which is outstanding; `ack = 0` has the upper edge. -/
theorem witness_nak_resend :
    seqBetween s4.ackExpected (sq (7 + 1)) s4.nextFrameToSend = true ∧
    s4.outBuf.read (seqSlot (sq (7 + 1))) = some [0x50, 0x30] ∧
    s0.outBuf.read (seqSlot (sq (7 + 1))) = none ∧
    seqBetween s4.ackExpected (sq (0 + 1)) s4.nextFrameToSend = false := by decide
/-- NakResendAndAckProgressCommute -/
theorem witness_commute : (at3 s4).Inv ∧ (7#8).toNat ≤ (at3 s4).cfg.maxSeq := ⟨inv_s4, by decide⟩
/-- StepOneNaksOrArmsTheAckTimer: another number with `no_nak` set; the expected one; `no_nak` clear. -/
theorem witness_step_one :
    s5.frameExpected.toNat ≠ 7 ∧ s5.noNak = true ∧ s5.frameExpected.toNat = 6 ∧ s5f.noNak = false := by decide
/-- StepTwoStoresWhatIsAcceptable: the last number of the window; one past it; one already marked. -/
theorem witness_step_two :
    (seqBetween s5.frameExpected (sq 1) s5.tooFar = true ∧ s5.arrived.get (seqSlot (sq 1)) = false) ∧
    seqBetween s5.frameExpected (sq 2) s5.tooFar = false ∧ s5f.arrived.get (seqSlot (sq 1)) = true := by decide
/-- DrainDeliversTheRunInOrder, UnwrittenSlotsFault: a run of four, and a marked slot never written. -/
theorem witness_drain :
    (∀ i : Slot R, ({ s5f with inBuf := #v[some [], some [], some [], some []] } : Station R).inBuf.read i ≠ none) ∧
    ({ s5 with arrived := #v[true, true, true, true] } : Station R).arrived.get (seqSlot s5.frameExpected) = true ∧
    s5.inBuf.read (seqSlot s5.frameExpected) = none := by decide
/-- OnFrameDataIsItsThreeSteps: the in-order frame 6 at S5. -/
theorem witness_on_frame_data :
    arrivedWritten s5f ∧ (6#8).toNat = s5f.frameExpected.toNat ∧ (6#8).toNat ≤ R.maxSeq := by
  unfold arrivedWritten
  decide
/-- DeliveredDuplicateIsIgnored: one back, and `NR_BUFS` back. -/
theorem witness_duplicate :
    s5.tooFar = seqAddw s5.frameExpected ∧ (s5.frameExpected - sq 5 : Seq R).toNat = 1 ∧
    (s5.frameExpected - sq 2 : Seq R).toNat = R.nrBufs := by decide
/-- StaleTimersNeverExpire: 2 and 6 share a slot. -/
theorem witness_stale_timers :
    (2 : Nat) % R.nrBufs = 6 % R.nrBufs ∧ runs (exec (.stopDataTimer 2) (at3 s4)) = true ∧
    runs (exec (.startDataTimer 2) (at3 s4)) = true ∧ (6#8) ≠ 2 := by decide
/-- CorruptNakSendsAtMostOne, AckTimeoutSendsThePureAck, NewPacketIsSubmitThenGate: the flag set and clear. -/
theorem witness_flags :
    s5.noNak = true ∧ s5f.noNak = false ∧ s4all.ackTimer.armed = true ∧ s4.ackTimer.armed = false ∧
    s4.intakeEn = true ∧ sFull.intakeEn = false ∧ R.pktMax < (List.replicate 9 0#8).length := by decide
/-- CorruptInputsAreIndistinguishable: each of the four causes (R250). -/
theorem witness_corrupt :
    validateInput R none = .corruptionError ∧ validateInput R (some [2, 5, 0]) = .corruptionError ∧
    validateInput R (some [2, 4, 0, 7]) = .corruptionError ∧ validateInput R (some [2, 8, 0, 10]) = .corruptionError := by decide
/-- OutstandingFramesAreAlwaysResent, EnabledEventsComplete: every event enabled at once. -/
theorem witness_enabled :
    (at3 s4all).Inv ∧ outstanding s4all (sq 0) ∧ s4all.intakeEn = true ∧ s4all.ackTimer.armed = true ∧
    (s4all.dataTimer.get (seqSlot (sq 0))).armed = true ∧ (s4all.dataTimer.get (seqSlot (sq 0))).seq = sq 0 :=
  ⟨inv_s4all, by unfold outstanding; decide, by decide, by decide, by decide, by decide⟩
/-- StepRunsTheDecodedOperation: an empty inbox, a decodable word, a corrupt string, two reserved codes. -/
theorem witness_step :
    State.reset.inbox = [] ∧ decode R ⟨.event, [1]⟩ = .instr .channelReady ∧
    decode R ⟨.channel, []⟩ = .rejected .corruptFrame ∧
    decode R ⟨.event, [5]⟩ = .rejected .reservedEventCode ∧ decode R ⟨.select, [0b110]⟩ = .rejected .reservedSelect := by decide
/-- StepKeepsTheInvariants, StepNeverReadsAnUnwrittenSlot: a NAK arrives at S4. -/
theorem witness_step_inv :
    ({ at3 s4 with inbox := [⟨.channel, [3, 5, 0, 6]⟩] } : State).Inv ∧
    runs (step { at3 s4 with inbox := [⟨.channel, [3, 5, 0, 6]⟩] }) = true := ⟨inv_s4, by decide⟩
/-- StepKeepsTheCounts: after one NAK and one delivery. -/
theorem witness_step_counts :
    let s : State := { at3 { s0 with frameExpected := sq 1, tooFar := sq 5, outs := [.transmit [3, 7, 0, 4], .deliver [9]] } with
      inbox := [⟨.event, [2, 0]⟩] }
    s.NakInv ∧ s.DeliveryInv ∧ runs (step s) = true := by
  unfold State.NakInv State.DeliveryInv
  decide
/-- IllFormedOperandsHaveNoStep: each bound, broken by one. -/
theorem witness_ill_formed :
    (Instr.between 7 7 8).wf R = false ∧ R.maxSeq < (8#8).toNat ∧ R.pktMax < (List.replicate 9 0#8).length ∧
    (7#8).toNat ≤ R.maxSeq ∧ Kind.ack ≠ Kind.data ∧ [0#8] ≠ [] ∧ [2#8, 5, 0].length < R.minLen := by decide
/-- U3, U8, R147, R144: the refusal is that of the bound. -/
theorem test_refusals_name_the_bound :
    why (exec (.onFrameDataStep2 8 (List.replicate 9 0)) (at3 s0)) = some .seqOutOfRange ∧
    why (exec (.onFrameDataStep2 7 (List.replicate 9 0)) (at3 s0)) = some .packetTooLong ∧
    why (exec (.serialize ⟨.nak, 1, 0, [0]⟩) (at3 s0)) = some .illFormedFrame := by decide
/-- The statements about every operation that runs: one that transmits a NAK, one that delivers, one that submits. -/
theorem witness_runs :
    runs (exec (.data 7 7 [1]) (at3 s0)) = true ∧ runs (exec (.data 7 6 [1]) (at3 s5f)) = true ∧
    runs (exec (.newPacketReady (some [1])) (at3 s4)) = true := by decide
/-- SenderAndReceiverStateAreDisjoint: each of the five runs. -/
theorem witness_disjoint :
    runs (exec (.submit [1]) (at3 s4)) = true ∧ runs (exec (.ackProgress 0) (at3 s4)) = true ∧
    runs (exec (.timeoutResend 0) (at3 s4)) = true ∧ runs (exec (.nakResend 7) (at3 s4)) = true ∧
    runs (exec (.onFrameData ⟨.data, 7, 6, [1]⟩) (at3 s5f)) = true := by decide
/-- EveryEventEndsWithTheGate: each of the eight runs in one state. -/
theorem witness_events :
    [Instr.data 7 0 [], .ack 7 0, .nak 7 0, .newPacketReady none, .channelReady, .frameArrived none, .dataTimeout 0,
      .ackTimeout].all (fun i => runs (exec i (at3 s4all))) = true := by decide
/-- The link after CHANNEL_READY and the first of two packets at A: one DATA frame in the channel. -/
def lSent : Link :=
  { cfg := R
    a :=
      { station :=
          { sReady with
            nextFrameToSend := sq 1, nbuffered := sq 1
            outBuf := #v[some [0xA0], none, none, none], dataTimer := #v[armed 0, off, off, off] }
        supply := [[0xA1]], got := [], wire := [some [0x01, 0x07, 0x00, 0xA0, 0xA6]] }
    b := LinkEnd.reset R [] }

/-- LinkNeverFaults -/
theorem inv_lSent_stations : lSent.StationsInv where
  left := {
    occupancy := by decide
    bounded := by decide
    window := by decide
    timersArmed := by unfold outstanding; decide +kernel
    timersSeq := by unfold outstanding; decide +kernel
    expectedMissing := by decide
    outWritten := by unfold outstanding; decide +kernel
    inWritten := by decide
    gateLevel := by decide
    outFits := by decide
    inFits := by decide }
  right := {
    occupancy := by decide
    bounded := by decide
    window := by decide
    timersArmed := by unfold outstanding; decide +kernel
    timersSeq := by unfold outstanding; decide +kernel
    expectedMissing := by decide
    outWritten := by unfold outstanding; decide +kernel
    inWritten := by decide
    gateLevel := by decide
    outFits := by decide
    inFits := by decide }

theorem flow_lSent_ab : Flow [[0xA0], [0xA1]] [[0xA0]] [0] [] lSent.a lSent.b where
  offered := by decide
  buffered := by decide
  upper := by decide
  lower := by decide
  inOrder := by decide
  expected := by decide
  notBehind := by decide
  held := by decide +kernel
  stored := by decide +kernel
  carried := by decide +kernel
  fresh := by decide
  freshForReceiver := by decide +kernel
  acknowledged := by decide +kernel
  ackOrder := by decide
  ackRange := by decide

theorem flow_lSent_ba : Flow [] [] [] [0] lSent.b lSent.a where
  offered := by decide
  buffered := by decide
  upper := by decide
  lower := by decide
  inOrder := by decide
  expected := by decide
  notBehind := by decide
  held := by decide +kernel
  stored := by decide +kernel
  carried := by decide +kernel
  fresh := by decide
  freshForReceiver := by decide +kernel
  acknowledged := by decide +kernel
  ackOrder := by decide
  ackRange := by decide

/-- LinkDeliversInOrderExactlyOnce, the step: the invariant, and a detected move that the link takes. -/
theorem witness_link_inv :
    lSent.cfg.CkSound ∧ LinkMove.detected lSent.cfg .arrive ∧ lSent.Inv [[0xA0], [0xA1]] [] ∧
    (match linkMove .b .arrive lSent with
      | .next l => some l.b.got
      | .fault _ => none
      | .refused _ => none) = some [[0xA0]] :=
  ⟨ckSound_R, trivial, ⟨inv_lSent_stations, rfl, rfl, ⟨_, _, _, flow_lSent_ab⟩, ⟨_, _, _, flow_lSent_ba⟩⟩, by decide⟩

/-- R290: the link at its start with nothing to offer is quiescent, and with a packet to offer it is not. -/
theorem test_link_quiescent : (linkReset R [] []).quiescent ∧ ¬(linkReset R [[0xA0]] []).quiescent := by
  unfold Link.quiescent Station.quiescent
  decide
/-- R290: nothing but CHANNEL_READY is left, at an end whose gate is open. -/
theorem test_link_quiescent_moves :
    let l : Link := { cfg := R, a := { LinkEnd.reset R [] with station := sReady }, b := LinkEnd.reset R [] }
    why (linkMove .a .offerNone l) = some .noSuchMove ∧ why (linkMove .a .offer l) = some .noSuchMove ∧
    why (linkMove .a .ackTimeout l) = some .ackTimerDisarmed ∧
    (match linkMove .a .channelReady l with
      | .next l' => decide (l' = l)
      | .fault _ => false
      | .refused _ => false) = true := by decide

/-- LinkDeliversInOrderExactlyOnce: a run with a loss, a detected damage and a retransmission. -/
theorem witness_link :
    R.CkSound ∧ LinkMove.detected R (.damage none) ∧
    (match linkRun [(.a, .channelReady), (.a, .offer), (.a, .lose), (.a, .dataTimeout 0), (.a, .damage none), (.b, .arrive),
        (.a, .arrive), (.b, .arrive)] (linkReset R [[0xA0]] []) with
      | .next l => some (l.b.got, l.a.supply)
      | .fault _ => none
      | .refused _ => none) = some ([[0xA0]], []) := ⟨ckSound_R, by unfold LinkMove.detected; decide, by decide⟩

end Sys2Proof.Tests
end

section
/-! SUPPORT. The frame of every operation (10_state.md R22, R26, R34, R37): the inversion of `exec` into one handler of the
station, the two registers an operation may write before anything else it does, and what the rest of it retains. -/

namespace Sys2Proof.Machine
open Sys2Proof

/-! ### Every operation is one handler of the station -/

/-- What an operation does to the station once its operands are accepted; one that answers a value does nothing to it. -/
def handler {c : Config} (i : Instr) (st : Station c) : Result (Station c) :=
  match i with
  | .data a q p => endHandler (receiveFrame ⟨.data, a, q, p⟩ st)
  | .ack a q => endHandler (receiveFrame ⟨.ack, a, q, []⟩ st)
  | .nak a q => endHandler (receiveFrame ⟨.nak, a, q, []⟩ st)
  | .newPacketReady packet => onNewPacketReady packet st
  | .channelReady => onChannelReady st
  | .frameArrived input => onFrameArrived input st
  | .dataTimeout q => onDataTimeout (seqOf c q) st
  | .ackTimeout => onAckTimeout st
  | .submit p => submit p st
  | .ackProgress a => .next (ackProgress (seqOf c a) st)
  | .timeoutResend q => timeoutResend (seqOf c q) st
  | .nakResend a => nakResend (seqOf c a) st
  | .onFrameDataStep1 q => onFrameDataStep1 (seqOf c q) st
  | .onFrameDataStep2 q p => .next (onFrameDataStep2 (seqOf c q) p st)
  | .onFrameDataStep3 => onFrameDataStep3 st
  | .onFrameData f => onFrameData (seqOf c f.seq) f.payload st
  | .startDataTimer q => .next (startDataTimer (seqOf c q) st)
  | .stopDataTimer q => .next (stopDataTimer (seqOf c q) st)
  | .startAckTimer => .next (startAckTimer st)
  | .stopAckTimer => .next (stopAckTimer st)
  | .sendFrame kind q => sendFrame kind (seqOf c q) st
  | .sendFrameNak => sendFrame .nak 0 st
  | .corruptNak => corruptNak st
  | .gate => .next (gate st)
  | _ => .next st

/-- `t` is `s` after a station handler that ended in `r`: only the station and the last answer may differ. -/
def Ran (s t : State) (r : Result (Station s.cfg)) : Prop :=
  ∃ (st : Station s.cfg) (v : Value), r = .next st ∧ t = { s with station := st, ret := v }

section
variable {s t : State}

theorem ran_of_onStation {f : Station s.cfg → Result (Station s.cfg)} (h : onStation s f = .next t) :
    Ran s t (f s.station) := by
  obtain ⟨st, hf, rfl⟩ := onStation_eq_next.1 h
  exact ⟨st, s.ret, hf, rfl⟩

theorem ran_of_answer {v : Value} (h : answer s v = .next t) : Ran s t (.next s.station) :=
  ⟨s.station, v, rfl, answer_eq_next.1 h⟩

/-- The inversion of `exec`: an operation that takes a next state has run its handler on the station. -/
theorem ran_handler_of_exec {i : Instr} (h : exec i s = .next t) : Ran s t (handler i s.station) := by
  unfold exec at h
  cases i with
  | data | ack | nak => exact ran_of_onStation (withFrame_eq_next.1 h).2
  | newPacketReady => exact ran_of_onStation (withPacket_eq_next.1 h).2
  | channelReady | frameArrived | ackTimeout => exact ran_of_onStation h
  | inc | pred | addw | slot => exact ran_of_answer (withSeq_eq_next.1 h).2
  | dist => exact ran_of_answer (withSeq_eq_next.1 (withSeq_eq_next.1 h).2).2
  | between => exact ran_of_answer (withSeq_eq_next.1 (withSeq_eq_next.1 (withSeq_eq_next.1 h).2).2).2
  | build =>
    have hb := (withSeq_eq_next.1 h).2
    split at hb
    · cases hb
    · exact ran_of_answer hb
  | serialize => exact ran_of_answer (withFrame_eq_next.1 h).2
  | piggyback | validate | validateMalformed => exact ran_of_answer h
  | parse =>
    simp only [execParse] at h
    split at h
    · exact ran_of_answer h
    · cases h
  | submit =>
    have hs := (withPacket_eq_next.1 h).2
    split at hs
    · exact ran_of_onStation hs
    · cases hs
  | ackProgress | timeoutResend | nakResend | onFrameDataStep1 | startDataTimer | stopDataTimer | sendFrame | dataTimeout =>
    exact ran_of_onStation (withSeq_eq_next.1 h).2
  | onFrameDataStep2 => exact ran_of_onStation (withPacket_eq_next.1 (withSeq_eq_next.1 h).2).2
  | onFrameData =>
    have hf := (withFrame_eq_next.1 h).2
    split at hf
    · exact ran_of_onStation hf
    · cases hf
    · cases hf
  | onFrameDataStep3 | startAckTimer | stopAckTimer | sendFrameNak | corruptNak | gate => exact ran_of_onStation h

end

/-! ### What a station retains -/

section
variable {c : Config}

/-- `st'` holds on to what `st` has output, to its output memory and to its `ch_ready`. -/
structure Retains (st st' : Station c) : Prop where
  outs : st.outs <+: st'.outs
  outBuf : st'.outBuf = st.outBuf
  chReady : st'.chReady = st.chReady

theorem Retains.refl (st : Station c) : Retains st st := ⟨List.prefix_refl _, rfl, rfl⟩

theorem Retains.trans {st₁ st₂ st₃ : Station c} (h : Retains st₁ st₂) (h' : Retains st₂ st₃) : Retains st₁ st₃ :=
  ⟨h.outs.trans h'.outs, h'.outBuf.trans h.outBuf, h'.chReady.trans h.chReady⟩

/-- A handler from `st` that ends in `r` retains: the station it answers does, where it answers one. -/
def RunRetains (st : Station c) (r : Result (Station c)) : Prop := ∀ st', r = .next st' → Retains st st'

theorem runRetains_next {st st' : Station c} (h : Retains st st') : RunRetains st (.next st') := by
  rintro _ ⟨⟩
  exact h

theorem runRetains_refused (st : Station c) (e : Refusal) : RunRetains st (.refused e) := by
  rintro _ ⟨⟩

theorem runRetains_chain {st : Station c} {r : Result (Station c)} {f : Station c → Result (Station c)}
    (hr : RunRetains st r) (hf : ∀ st₁, RunRetains st₁ (f st₁)) : RunRetains st (chain r f) := by
  intro st' h
  obtain ⟨st₁, h₁, h₂⟩ := chain_eq_next.1 h
  exact (hr st₁ h₁).trans (hf st₁ st' h₂)

/-! ### The shared operations retain -/

variable (st : Station c)

theorem gate_retains : Retains st (gate st) := ⟨List.prefix_append _ _, rfl, rfl⟩

theorem runRetains_endHandler {r : Result (Station c)} (hr : RunRetains st r) : RunRetains st (endHandler r) :=
  runRetains_chain hr fun st₁ => runRetains_next (gate_retains st₁)

theorem startDataTimer_retains (q : Seq c) : Retains st (startDataTimer q st) := ⟨List.prefix_refl _, rfl, rfl⟩

theorem stopDataTimer_retains (q : Seq c) : Retains st (stopDataTimer q st) := ⟨List.prefix_refl _, rfl, rfl⟩

theorem startAckTimer_retains : Retains st (startAckTimer st) := ⟨List.prefix_refl _, rfl, rfl⟩

theorem stopAckTimer_retains : Retains st (stopAckTimer st) := ⟨List.prefix_refl _, rfl, rfl⟩

theorem sendFrame_retains (kind : Kind) (q : Seq c) : RunRetains st (sendFrame kind q st) := by
  intro st' h
  obtain ⟨f, -, -, -, rfl⟩ := sendFrame_eq_next st h
  exact ⟨List.prefix_append _ _, rfl, rfl⟩

theorem corruptNak_retains : RunRetains st (corruptNak st) := by
  rw [corruptNak_cases]
  refine runRetains_next ?_
  split
  · exact ⟨List.prefix_append _ _, rfl, rfl⟩
  · exact .refl st

/-! ### The sender's operations retain -/

/-- A DATA frame goes out and its timer is restarted: what SUBMIT, TIMEOUT_RESEND and NAK_RESEND have in common. -/
theorem sendFrame_chain_startDataTimer_retains (q : Seq c) :
    RunRetains st (chain (sendFrame .data q st) fun st₁ => .next (startDataTimer q st₁)) :=
  runRetains_chain (sendFrame_retains st .data q) fun st₁ => runRetains_next (startDataTimer_retains st₁ q)

theorem timeoutResend_retains (q : Seq c) : RunRetains st (timeoutResend q st) := by
  unfold timeoutResend
  split
  · exact sendFrame_chain_startDataTimer_retains st q
  · exact runRetains_refused st _

theorem nakResend_retains (a : Seq c) : RunRetains st (nakResend a st) := by
  unfold nakResend
  split
  · exact sendFrame_chain_startDataTimer_retains st _
  · exact runRetains_next (.refl st)

theorem ackProgress_retains (a : Seq c) : Retains st (ackProgress a st) := by
  rw [ackProgress_frame]
  exact ⟨List.prefix_refl _, rfl, rfl⟩

/-- The store of SUBMIT (R160), its one write of the output memory. -/
def storeNext (p : Packet) (st : Station c) : Station c :=
  { st with outBuf := st.outBuf.write (seqSlot st.nextFrameToSend) p }

/-- SUBMIT is its store and operations that retain. -/
theorem submit_retains_storeNext (p : Packet) : RunRetains (storeNext p st) (submit p st) := by
  unfold submit
  split
  · exact runRetains_chain (sendFrame_retains (storeNext p st) .data _) fun st₁ =>
      runRetains_next ⟨List.prefix_refl _, rfl, rfl⟩
  · exact runRetains_refused _ _

/-! ### The receiver's operations retain -/

theorem onFrameDataStep1_retains (q : Seq c) : RunRetains st (onFrameDataStep1 q st) := by
  rw [onFrameDataStep1_cases]
  refine runRetains_next ?_
  split
  · exact ⟨List.prefix_append _ _, rfl, rfl⟩
  · exact startAckTimer_retains st

theorem onFrameDataStep2_retains (q : Seq c) (p : Packet) : Retains st (onFrameDataStep2 q p st) := by
  rw [onFrameDataStep2_frame]
  exact ⟨List.prefix_refl _, rfl, rfl⟩

theorem deliverExpected_retains (p : Packet) : Retains st (deliverExpected p st) := ⟨List.prefix_append _ _, rfl, rfl⟩

theorem onFrameDataStep3_retains : RunRetains st (onFrameDataStep3 st) := fun _ h =>
  drainLoop_induct st (Retains st) (fun st₁ p _ _ h₁ => h₁.trans (deliverExpected_retains st₁ p)) c.nrBufs (.refl st) h

theorem onFrameData_retains (q : Seq c) (p : Packet) : RunRetains st (onFrameData q p st) :=
  runRetains_chain (onFrameDataStep1_retains st q) fun st₁ st' h =>
    (onFrameDataStep2_retains st₁ q p).trans (onFrameDataStep3_retains _ st' h)

theorem receiveFrame_retains (f : Frame) : RunRetains st (receiveFrame f st) := by
  refine runRetains_chain ?_ fun st₁ => runRetains_next (ackProgress_retains st₁ _)
  cases f.kind with
  | data => exact onFrameData_retains st _ _
  | ack => exact runRetains_next (.refl st)
  | nak => exact nakResend_retains st _

/-! ### The events -/

theorem onFrameArrived_retains (input : Option Bytes) : RunRetains st (onFrameArrived input st) := by
  refine runRetains_endHandler st ?_
  cases validateInput c input with
  | corruptionError => exact corruptNak_retains st
  | frame f => exact receiveFrame_retains st f

theorem onAckTimeout_retains : RunRetains st (onAckTimeout st) := by
  unfold onAckTimeout
  split
  · exact runRetains_endHandler st fun st' h => (stopAckTimer_retains st).trans (sendFrame_retains _ .ack 0 st' h)
  · exact runRetains_refused st _

/-! ### Every operation is its first write and operations that retain -/

/-- The write of `ch_ready` or of the output memory that an operation does before all else (R160, R223); most do none. -/
def firstWrite (i : Instr) (st : Station c) : Station c :=
  match i with
  | .channelReady => setChReady st
  | .submit p => storeNext p st
  | .newPacketReady (some p) => storeNext p st
  | _ => st

theorem outs_firstWrite (i : Instr) : (firstWrite i st).outs = st.outs := by
  unfold firstWrite
  split <;> rfl

theorem chReady_firstWrite (i : Instr) : (firstWrite i st).chReady = (st.chReady || decide (i = .channelReady)) := by
  unfold firstWrite
  split
  · simp
  · simp [storeNext]
  · simp [storeNext]
  · simp_all

theorem outBuf_firstWrite {i : Instr} (hs : ∀ p, i ≠ .submit p) (hn : ∀ p, i ≠ .newPacketReady (some p)) :
    (firstWrite i st).outBuf = st.outBuf := by
  unfold firstWrite
  split
  · rfl
  · exact absurd rfl (hs _)
  · exact absurd rfl (hn _)
  · rfl

theorem onNewPacketReady_retains (packet : Option Packet) :
    RunRetains (firstWrite (.newPacketReady packet) st) (onNewPacketReady packet st) := by
  unfold onNewPacketReady
  split
  · refine runRetains_endHandler _ ?_
    cases packet with
    | some p => exact submit_retains_storeNext st p
    | none => exact runRetains_next (.refl st)
  · exact runRetains_refused _ _

theorem handler_retains_firstWrite (i : Instr) : RunRetains (firstWrite i st) (handler i st) := by
  cases i with
  | data | ack | nak => exact runRetains_endHandler st (receiveFrame_retains st _)
  | newPacketReady packet => exact onNewPacketReady_retains st packet
  | channelReady => exact runRetains_endHandler _ (runRetains_next (.refl _))
  | frameArrived input => exact onFrameArrived_retains st input
  | dataTimeout => exact runRetains_endHandler st (timeoutResend_retains st _)
  | ackTimeout => exact onAckTimeout_retains st
  | inc | pred | addw | slot | dist | between => exact runRetains_next (.refl st)
  | build | serialize | piggyback | validate | parse | validateMalformed => exact runRetains_next (.refl st)
  | submit p => exact submit_retains_storeNext st p
  | ackProgress => exact runRetains_next (ackProgress_retains st _)
  | timeoutResend => exact timeoutResend_retains st _
  | nakResend => exact nakResend_retains st _
  | onFrameDataStep1 => exact onFrameDataStep1_retains st _
  | onFrameDataStep2 => exact runRetains_next (onFrameDataStep2_retains st _ _)
  | onFrameDataStep3 => exact onFrameDataStep3_retains st
  | onFrameData => exact onFrameData_retains st _ _
  | startDataTimer => exact runRetains_next (startDataTimer_retains st _)
  | stopDataTimer => exact runRetains_next (stopDataTimer_retains st _)
  | startAckTimer => exact runRetains_next (startAckTimer_retains st)
  | stopAckTimer => exact runRetains_next (stopAckTimer_retains st)
  | sendFrame kind => exact sendFrame_retains st kind _
  | sendFrameNak => exact sendFrame_retains st .nak 0
  | corruptNak => exact corruptNak_retains st
  | gate => exact runRetains_next (gate_retains st)

end

/-- The frame of the whole machine: an operation that takes a next state replaces the station and the last answer, and
the new station retains what the first write left. -/
theorem exec_frame {i : Instr} {s t : State} (h : exec i s = .next t) :
    ∃ (st : Station s.cfg) (v : Value), t = { s with station := st, ret := v } ∧ Retains (firstWrite i s.station) st := by
  obtain ⟨st, v, hr, rfl⟩ := ran_handler_of_exec h
  exact ⟨st, v, rfl, handler_retains_firstWrite s.station i st hr⟩

/-! ### The obligations -/

/-- Settles O51: only the station and the answer are replaced, and the station retains its outputs. -/
theorem operationsLeaveTheOutsideAlone : Obligations.OperationsLeaveTheOutsideAlone := by
  intro i s t h
  obtain ⟨st, v, rfl, hst⟩ := exec_frame h
  exact ⟨rfl, rfl, outs_firstWrite s.station i ▸ hst.outs⟩

/-- Settles O52: `ch_ready` is what the first write left, and only CHANNEL_READY's writes it. -/
theorem onlyChannelReadyWritesChReady : Obligations.OnlyChannelReadyWritesChReady := by
  intro i s t h
  obtain ⟨st, v, rfl, hst⟩ := exec_frame h
  exact hst.chReady.trans (chReady_firstWrite s.station i)

/-- Settles O53: the output memory is what the first write left, and only SUBMIT's writes it. -/
theorem onlySubmitWritesTheOutputMemory : Obligations.OnlySubmitWritesTheOutputMemory := by
  intro i s t h hs hn
  obtain ⟨st, v, rfl, hst⟩ := exec_frame h
  exact congrArg Vector.toList (hst.outBuf.trans (outBuf_firstWrite s.station hs hn))

end Sys2Proof.Machine
end

section
/-! SUPPORT. Sequence numbers as counts (20_memory.md R61, R63, R79): the number of the `k`-th packet is `k` modulo `M`,
and among counts that lie near each other nothing wraps. A window of the ring is an interval of counts. -/

namespace Sys2Proof.Machine
open Sys2Proof

/-- Two counts with one remainder are equal if they lie less than the modulus apart. -/
theorem eq_of_mod_eq_of_near {m j k : Nat} (h : j % m = k % m) (hj : j < k + m) (hk : k < j + m) : j = k := by
  rcases Nat.le_total j k with hle | hle
  · have := Nat.eq_zero_of_dvd_of_lt ((Nat.modEq_iff_dvd' hle).1 h) (by omega)
    omega
  · have := Nat.eq_zero_of_dvd_of_lt ((Nat.modEq_iff_dvd' hle).1 h.symm) (by omega)
    omega

variable {c : Config}

/-! ### Numbers of counts -/

theorem toNat_eq_mod_iff (q : Seq c) (k : Nat) : q.toNat = k % c.M ↔ q = BitVec.ofNat c.n k := by
  rw [← toNat_ofNat_seq, BitVec.toNat_inj]

theorem ofNat_seq_inj_of_near {j k : Nat} (h : (BitVec.ofNat c.n j : Seq c) = BitVec.ofNat c.n k)
    (hj : j < k + c.M) (hk : k < j + c.M) : j = k := by
  refine eq_of_mod_eq_of_near ?_ hj hk
  rw [← toNat_ofNat_seq, ← toNat_ofNat_seq, h]

theorem seqInc_ofNat (k : Nat) : seqInc (BitVec.ofNat c.n k : Seq c) = BitVec.ofNat c.n (k + 1) := by
  rw [seqInc_eq, BitVec.ofNat_add]
  rfl

theorem seqAddw_ofNat (k : Nat) : seqAddw (BitVec.ofNat c.n k : Seq c) = BitVec.ofNat c.n (k + c.nrBufs) := by
  rw [seqAddw_eq, BitVec.ofNat_add]

theorem ofNat_sub_ofNat_seq {j k : Nat} (h : j ≤ k) :
    (BitVec.ofNat c.n k - BitVec.ofNat c.n j : Seq c) = BitVec.ofNat c.n (k - j) := by
  have : BitVec.ofNat c.n k = BitVec.ofNat c.n (k - j) + BitVec.ofNat c.n j := by
    rw [← BitVec.ofNat_add, Nat.sub_add_cancel h]
  rw [this, BitVec.add_sub_cancel]

/-- A number is as far ahead of `a` as its distance says. -/
theorem eq_ofNat_add_dist (a q : Seq c) : q = BitVec.ofNat c.n (a.toNat + (q - a).toNat) := by
  rw [BitVec.ofNat_add, BitVec.ofNat_toNat, BitVec.ofNat_toNat, BitVec.setWidth_eq, BitVec.setWidth_eq, BitVec.add_comm,
    BitVec.sub_add_cancel]

theorem seqOf_eq_ofNat_of_mod {a : Byte} {k : Nat} (h : a.toNat = k % c.M) : seqOf c a = BitVec.ofNat c.n k := by
  rw [← toNat_eq_mod_iff, toNat_seqOf, h, Nat.mod_mod]

/-- The successor of an `ack` field is the count of deliveries that it acknowledges (R94, R142). -/
theorem seqInc_seqOf_ack {a : Byte} {v : Nat} (h : a.toNat = (v + c.maxSeq) % c.M) :
    seqInc (seqOf c a) = BitVec.ofNat c.n v := by
  rw [seqOf_eq_ofNat_of_mod h, seqInc_ofNat, Nat.add_assoc, maxSeq_succ, ← toNat_eq_mod_iff, toNat_ofNat_seq,
    Nat.add_mod_right]

/-! ### Windows -/

/-- The window from the number of `lo` to that of `hi` holds the numbers of the counts between them. -/
theorem seqBetween_ofNat_iff {lo hi : Nat} (h : lo ≤ hi) (hM : hi < lo + c.M) (q : Seq c) :
    seqBetween (BitVec.ofNat c.n lo) q (BitVec.ofNat c.n hi) = true ↔ ∃ k, lo ≤ k ∧ k < hi ∧ q = BitVec.ofNat c.n k := by
  rw [seqBetween_iff_dist, ofNat_sub_ofNat_seq h, toNat_ofNat_seq, Nat.mod_eq_of_lt (by omega)]
  constructor
  · intro hq
    refine ⟨lo + (q - BitVec.ofNat c.n lo).toNat, by omega, by omega, ?_⟩
    rw [BitVec.ofNat_add, BitVec.ofNat_toNat, BitVec.setWidth_eq, BitVec.add_comm, BitVec.sub_add_cancel]
  · rintro ⟨k, hlo, hhi, rfl⟩
    rw [ofNat_sub_ofNat_seq hlo, toNat_ofNat_seq, Nat.mod_eq_of_lt (by omega)]
    omega

/-- The window of the `NR_BUFS` numbers from `a` on. -/
theorem seqBetween_seqAddw_iff (a q : Seq c) : seqBetween a q (seqAddw a) = true ↔ (q - a).toNat < c.nrBufs := by
  have hM := M_eq_two_nrBufs c
  have hpos := c.nrBufs_pos
  rw [seqBetween_iff_dist, seqAddw_eq, BitVec.add_comm a, BitVec.add_sub_cancel, toNat_ofNat_seq,
    Nat.mod_eq_of_lt (by omega)]

/-! ### Slots -/

theorem val_slotOfNth (k : Nat) : (slotOfNth c k).val = k % c.nrBufs := by
  rw [slotOfNth, val_seqSlot, toNat_ofNat_seq]
  exact Nat.mod_mod_of_dvd k ⟨2, by rw [M_eq_two_nrBufs, Nat.mul_comm]⟩

theorem slotOfNth_inj_of_near {j k : Nat} (h : slotOfNth c j = slotOfNth c k) (hj : j < k + c.nrBufs)
    (hk : k < j + c.nrBufs) : j = k := by
  refine eq_of_mod_eq_of_near ?_ hj hk
  rw [← val_slotOfNth, ← val_slotOfNth, h]

/-- `NR_BUFS` counts on, the slot is the same (R61). -/
theorem slotOfNth_add_nrBufs (k : Nat) : slotOfNth c (k + c.nrBufs) = slotOfNth c k := by
  apply Fin.ext
  rw [val_slotOfNth, val_slotOfNth, Nat.add_mod_right]

/-- R63: numbers among the `NR_BUFS` from `a` on have slots of their own. -/
theorem seqSlot_inj_of_dist_lt {a q r : Seq c} (h : seqSlot q = seqSlot r) (hq : (q - a).toNat < c.nrBufs)
    (hr : (r - a).toNat < c.nrBufs) : q = r := by
  rw [eq_ofNat_add_dist a q, eq_ofNat_add_dist a r] at h ⊢
  rw [slotOfNth_inj_of_near h (by omega) (by omega)]

/-- The outstanding numbers are the `nbuffered` numbers from `ack_expected` on (R300). -/
theorem outstanding_iff_dist {st : Station c} (h : st.nbuffered = seqDist st.ackExpected st.nextFrameToSend) (q : Seq c) :
    outstanding st q ↔ (q - st.ackExpected).toNat < st.nbuffered.toNat := by
  rw [outstanding, seqBetween_iff_dist, h, seqDist_eq]

/-! ### The obligations -/

/-- Settles O6: the outstanding and the acceptable numbers are among `NR_BUFS` from `ack_expected`, from
`frame_expected` on. -/
theorem liveNumbersHaveDistinctSlots : Obligations.LiveNumbersHaveDistinctSlots := by
  intro c a q r hslot
  refine ⟨seqSlot_inj_of_dist_lt hslot, fun st hst hq hr => ?_, fun st hst hq hr => ?_⟩
  · rw [outstanding_iff_dist hst.occupancy] at hq hr
    exact seqSlot_inj_of_dist_lt hslot (hq.trans_le hst.bounded) (hr.trans_le hst.bounded)
  · rw [hst.window, seqBetween_seqAddw_iff] at hq hr
    exact seqSlot_inj_of_dist_lt hslot hq hr

/-- Settles O7, by the read-after-write rules of the memories. -/
theorem slotReadAfterWrite : Obligations.SlotReadAfterWrite := by
  intro c m i j p
  exact ⟨read_write_self m i p, read_write_ne m p, fun h hp => wf_write m i p h (decide_eq_true hp)⟩

/-- A number outside the receiver's window is ignored (R181). -/
theorem onFrameDataStep2_outside {st : Station c} {q : Seq c} (p : Packet)
    (h : seqBetween st.frameExpected q st.tooFar = false) : onFrameDataStep2 q p st = st := by
  rw [onFrameDataStep2, if_neg (by simp [h])]

/-- A number 1 to `NR_BUFS` behind `a` is at least `NR_BUFS` ahead of it, the long way round (R73). -/
theorem nrBufs_le_dist_of_behind {a q : Seq c} (h₁ : 1 ≤ (a - q).toNat) (h₂ : (a - q).toNat ≤ c.nrBufs) :
    c.nrBufs ≤ (q - a).toNat := by
  have hM := M_eq_two_nrBufs c
  rcases toNat_sub_cases a q with h | h <;> rcases toNat_sub_cases q a with h' | h' <;> omega

/-- Settles O26: a number that is just behind `frame_expected` lies outside the receiver's window. -/
theorem deliveredDuplicateIsIgnored : Obligations.DeliveredDuplicateIsIgnored := by
  intro s q p hq hp hw h₁ h₂
  have hseq : seqOk s.cfg q = true := decide_eq_true hq
  have hpkt : packetOk s.cfg p = true := decide_eq_true hp
  have hout : seqBetween s.station.frameExpected (seqOf s.cfg q) s.station.tooFar = false := by
    rw [Bool.eq_false_iff, ne_eq, hw, seqBetween_seqAddw_iff, seqOf_eq_ofNat]
    exact Nat.not_lt.2 (nrBufs_le_dist_of_behind h₁ h₂)
  change execOnFrameDataStep2 q p s = _
  rw [execOnFrameDataStep2, withSeq_of_ok hseq, withPacket, if_pos hpkt, onStation, onFrameDataStep2_outside p hout,
    chain_next]

end Sys2Proof.Machine
end

section
/-! SUPPORT. The invariants of a station inside a handler (70_reset_and_hazards.md R300 to R305): all of `Station.Inv` but
R303 and R305, which a handler restores only at its end. One lemma per elementary action that keeps them. -/

namespace Sys2Proof.Machine
open Sys2Proof

variable {c : Config} {st : Station c}

/-- What of `Station.Inv` holds after every action of a handler. -/
structure Station.CoreInv (st : Station c) : Prop where
  occupancy : st.nbuffered = seqDist st.ackExpected st.nextFrameToSend
  bounded : st.nbuffered.toNat ≤ c.nrBufs
  window : st.tooFar = seqAddw st.frameExpected
  timersArmed : ∀ i : Slot c, (st.dataTimer.get i).armed = true ↔ ∃ q : Seq c, outstanding st q ∧ seqSlot q = i
  timersSeq : ∀ q : Seq c, outstanding st q → (st.dataTimer.get (seqSlot q)).seq = q
  outWritten : ∀ q : Seq c, outstanding st q → (st.outBuf.read (seqSlot q)).isSome = true
  inWritten : arrivedWritten st
  outFits : st.outBuf.wf = true
  inFits : st.inBuf.wf = true

namespace Station.CoreInv

theorem of_inv (h : st.Inv) : st.CoreInv := { h with }

/-- The gate at the end of a handler restores R305 (R230). -/
theorem inv_gate (h : st.CoreInv) (hmissing : st.arrived.get (seqSlot st.frameExpected) = false) : (gate st).Inv :=
  { h with expectedMissing := hmissing, gateLevel := rfl }

/-- The registers that no invariant but R305 speaks of. -/
theorem other_registers (h : st.CoreInv) (ackTimer : AckTimer) (noNak chReady intakeEn : Bool) (outs : List Output) :
    Station.CoreInv { st with ackTimer, noNak, chReady, intakeEn, outs } := { h with }

/-! ### The sender's window -/

/-- The sender's registers hold two counts, `nbuffered` apart (R300). -/
theorem exists_counts (h : st.CoreInv) : ∃ lo, st.ackExpected = BitVec.ofNat c.n lo ∧
    st.nextFrameToSend = BitVec.ofNat c.n (lo + st.nbuffered.toNat) := by
  refine ⟨st.ackExpected.toNat, by simp, ?_⟩
  rw [h.occupancy, seqDist_eq]
  exact eq_ofNat_add_dist _ _

end Station.CoreInv

theorem outstanding_iff_count {lo hi : Nat} (hlo : st.ackExpected = BitVec.ofNat c.n lo)
    (hhi : st.nextFrameToSend = BitVec.ofNat c.n hi) (hle : lo ≤ hi) (hN : hi ≤ lo + c.nrBufs) (q : Seq c) :
    outstanding st q ↔ ∃ k, lo ≤ k ∧ k < hi ∧ q = BitVec.ofNat c.n k := by
  have hM := M_eq_two_nrBufs c
  have hpos := c.nrBufs_pos
  rw [outstanding, hlo, hhi, seqBetween_ofNat_iff hle (by omega)]

/-- SUBMIT but for its transmission (R160): the packet is stored, its timer started, the window one longer. -/
def enqueue (p : Packet) (st : Station c) : Station c :=
  { startDataTimer st.nextFrameToSend (storeNext p st) with
    nextFrameToSend := seqInc st.nextFrameToSend
    nbuffered := st.nbuffered + 1 }

@[simp] theorem dataTimer_enqueue (p : Packet) :
    (enqueue p st).dataTimer = (startDataTimer st.nextFrameToSend st).dataTimer := rfl
@[simp] theorem outBuf_enqueue (p : Packet) :
    (enqueue p st).outBuf = st.outBuf.write (seqSlot st.nextFrameToSend) p := rfl

theorem submit_eq_next {p : Packet} {st' : Station c} (h : submit p st = .next st') : st.nbuffered.toNat < c.nrBufs ∧
    st' = transmit (serializeFrame c ⟨.data, ackByte st, zext8 st.nextFrameToSend, p⟩) (enqueue p st) := by
  rcases Nat.lt_or_ge st.nbuffered.toNat c.nrBufs with hroom | hfull
  · rw [submit_next st p hroom] at h
    cases h
    exact ⟨hroom, rfl⟩
  · rw [submit_full st p hfull] at h
    cases h

theorem toNat_nbuffered_enqueue (p : Packet) (h : st.nbuffered.toNat < c.nrBufs) :
    (enqueue p st).nbuffered.toNat = st.nbuffered.toNat + 1 := by
  have hM := M_eq_two_nrBufs c
  change (st.nbuffered + 1).toNat = _
  rcases toNat_add_one_cases st.nbuffered with h₁ | h₁ <;> omega

theorem toNat_nbuffered_retireOldest (h : 0 < st.nbuffered.toNat) :
    (retireOldest st).nbuffered.toNat = st.nbuffered.toNat - 1 := by
  have h₁ := toNat_sub_cases 1 st.nbuffered
  rw [toNat_one_seq] at h₁
  rw [nbuffered_retireOldest]
  omega

/-- A window that holds a number is not empty. -/
theorem nbuffered_pos_of_outstanding (h : st.CoreInv) {q : Seq c} (hq : outstanding st q) : 0 < st.nbuffered.toNat := by
  rw [outstanding_iff_dist h.occupancy] at hq
  omega

theorem outstanding_enqueue (h : st.CoreInv) (p : Packet) (hroom : st.nbuffered.toNat < c.nrBufs) (q : Seq c) :
    outstanding (enqueue p st) q ↔ outstanding st q ∨ q = st.nextFrameToSend := by
  obtain ⟨lo, hlo, hhi⟩ := h.exists_counts
  have hhi' : (enqueue p st).nextFrameToSend = BitVec.ofNat c.n (lo + st.nbuffered.toNat + 1) := by
    rw [← seqInc_ofNat, ← hhi]
    rfl
  rw [outstanding_iff_count hlo hhi (by omega) (by omega),
    outstanding_iff_count (st := enqueue p st) hlo hhi' (by omega) (by omega), hhi]
  constructor
  · rintro ⟨k, h₁, h₂, rfl⟩
    rcases Nat.lt_succ_iff_lt_or_eq.1 h₂ with h₃ | rfl
    · exact .inl ⟨k, h₁, h₃, rfl⟩
    · exact .inr rfl
  · rintro (⟨k, h₁, h₂, rfl⟩ | rfl)
    · exact ⟨k, h₁, by omega, rfl⟩
    · exact ⟨_, by omega, by omega, rfl⟩

theorem outstanding_retireOldest (h : st.CoreInv) (hpos : 0 < st.nbuffered.toNat) (q : Seq c) :
    outstanding (retireOldest st) q ↔ outstanding st q ∧ q ≠ st.ackExpected := by
  have hM := M_eq_two_nrBufs c
  have hb := h.bounded
  obtain ⟨lo, hlo, hhi⟩ := h.exists_counts
  have hlo' : (retireOldest st).ackExpected = BitVec.ofNat c.n (lo + 1) := by
    rw [ackExpected_retireOldest, hlo, seqInc_ofNat]
  rw [outstanding_iff_count hlo hhi (by omega) (by omega),
    outstanding_iff_count (st := retireOldest st) hlo' hhi (by omega) (by omega), hlo]
  constructor
  · rintro ⟨k, h₁, h₂, rfl⟩
    refine ⟨⟨k, by omega, h₂, rfl⟩, fun e => ?_⟩
    have := ofNat_seq_inj_of_near e (by omega) (by omega)
    omega
  · rintro ⟨⟨k, h₁, h₂, rfl⟩, hne⟩
    have : k ≠ lo := fun e => hne (e ▸ rfl)
    exact ⟨k, by omega, h₂, rfl⟩

/-- Two outstanding numbers with one slot are one number (R63). -/
theorem outstanding_slot_inj (h : st.CoreInv) {q r : Seq c} (hq : outstanding st q) (hr : outstanding st r)
    (hs : seqSlot q = seqSlot r) : q = r := by
  rw [← h.timersSeq q hq, ← h.timersSeq r hr, hs]

/-- The next number's slot is free while the window is not full (R63). -/
theorem seqSlot_ne_of_outstanding (h : st.CoreInv) (hroom : st.nbuffered.toNat < c.nrBufs) {q : Seq c}
    (hq : outstanding st q) : seqSlot q ≠ seqSlot st.nextFrameToSend := by
  have hnext : (st.nextFrameToSend - st.ackExpected).toNat = st.nbuffered.toNat := by rw [h.occupancy, seqDist_eq]
  have hdist := (outstanding_iff_dist h.occupancy q).1 hq
  intro e
  have := seqSlot_inj_of_dist_lt e (hdist.trans hroom) (by omega)
  subst this
  omega

namespace Station.CoreInv

/-- A timer restarted for an outstanding number is armed for that number as before (R162, R163). -/
theorem startDataTimer (h : st.CoreInv) {q : Seq c} (hq : outstanding st q) : (startDataTimer q st).CoreInv where
  occupancy := h.occupancy
  bounded := h.bounded
  window := h.window
  timersArmed i := by
    rw [dataTimer_startDataTimer, bank_get_set]
    split
    · next hi => exact iff_of_true rfl ⟨q, hq, hi.symm⟩
    · exact h.timersArmed i
  timersSeq r hr := by
    rw [dataTimer_startDataTimer, bank_get_set]
    split
    · next hs => exact outstanding_slot_inj h hq hr hs.symm
    · exact h.timersSeq r hr
  outWritten := h.outWritten
  inWritten := h.inWritten
  outFits := h.outFits
  inFits := h.inFits

theorem enqueue (h : st.CoreInv) {p : Packet} (hp : packetOk c p = true) (hroom : st.nbuffered.toNat < c.nrBufs) :
    (enqueue p st).CoreInv where
  occupancy := by
    have := h.occupancy
    rw [seqDist_eq] at this
    change st.nbuffered + 1 = seqDist st.ackExpected (seqInc st.nextFrameToSend)
    rw [seqDist_eq, seqInc_eq, this, BitVec.sub_add_comm]
  bounded := by
    rw [toNat_nbuffered_enqueue p hroom]
    exact hroom
  window := h.window
  timersArmed i := by
    rw [dataTimer_enqueue, dataTimer_startDataTimer, bank_get_set]
    split
    · next hi => exact iff_of_true rfl ⟨_, (outstanding_enqueue h p hroom _).2 (.inr rfl), hi.symm⟩
    · next hi =>
      rw [h.timersArmed]
      refine exists_congr fun q => and_congr_left fun hs => ?_
      rw [outstanding_enqueue h p hroom, or_iff_left]
      rintro rfl
      exact hi hs.symm
  timersSeq q hq := by
    rw [dataTimer_enqueue, dataTimer_startDataTimer]
    rcases (outstanding_enqueue h p hroom q).1 hq with hq | rfl
    · rw [bank_get_set_ne _ _ (seqSlot_ne_of_outstanding h hroom hq)]
      exact h.timersSeq q hq
    · rw [bank_get_set_self]
  outWritten q hq := by
    rw [outBuf_enqueue]
    rcases (outstanding_enqueue h p hroom q).1 hq with hq | rfl
    · rw [read_write_ne _ p (seqSlot_ne_of_outstanding h hroom hq)]
      exact h.outWritten q hq
    · rw [read_write_self]
      rfl
  inWritten := h.inWritten
  outFits := wf_write _ _ p h.outFits hp
  inFits := h.inFits

theorem retireOldest (h : st.CoreInv) (hpos : 0 < st.nbuffered.toNat) : (retireOldest st).CoreInv where
  occupancy := by
    rw [nbuffered_retireOldest, ackExpected_retireOldest, nextFrameToSend_retireOldest, h.occupancy, seqDist_eq, seqDist_eq,
      seqInc_eq, BitVec.sub_sub]
  bounded := by
    have := h.bounded
    rw [toNat_nbuffered_retireOldest hpos]
    omega
  window := h.window
  timersArmed i := by
    have hold : outstanding st st.ackExpected := by
      rw [outstanding_iff_dist h.occupancy, BitVec.sub_self]
      exact hpos
    rw [dataTimer_retireOldest, dataTimer_stopDataTimer, bank_get_set]
    simp only [outstanding_retireOldest h hpos]
    split
    · next hi =>
      refine iff_of_false Bool.false_ne_true ?_
      rintro ⟨q, ⟨hq, hne⟩, hs⟩
      exact hne (outstanding_slot_inj h hq hold (hs.trans hi))
    · next hi =>
      rw [h.timersArmed]
      refine exists_congr fun q => and_congr_left fun hs => (and_iff_left ?_).symm
      rintro rfl
      exact hi hs.symm
  timersSeq q hq := by
    have hq := ((outstanding_retireOldest h hpos q).1 hq).1
    rw [dataTimer_retireOldest, dataTimer_stopDataTimer, bank_get_set]
    split
    · next hs => rw [← hs]; exact h.timersSeq q hq
    · exact h.timersSeq q hq
  outWritten q hq := h.outWritten q ((outstanding_retireOldest h hpos q).1 hq).1
  inWritten := h.inWritten
  outFits := h.outFits
  inFits := h.inFits

/-! ### The receiver's window -/

theorem onFrameDataStep2 (h : st.CoreInv) (q : Seq c) {p : Packet} (hp : packetOk c p = true) :
    (onFrameDataStep2 q p st).CoreInv := by
  have hw := onFrameDataStep2_arrivedWritten st q p h.inWritten
  revert hw
  rw [Machine.onFrameDataStep2]
  split
  · exact fun hw => { h with inWritten := hw, inFits := wf_write _ _ p h.inFits hp }
  · exact fun _ => h

theorem deliverExpected (h : st.CoreInv) (p : Packet) : (deliverExpected p st).CoreInv :=
  { h with
    window := by
      rw [tooFar_deliverExpected, frameExpected_deliverExpected, h.window]
      rw [seqInc_eq, seqInc_eq, seqAddw_eq, seqAddw_eq, BitVec.add_assoc, BitVec.add_assoc, BitVec.add_comm 1]
    inWritten := deliverExpected_arrivedWritten st p h.inWritten }

end Station.CoreInv

/-! ### The drain loop ends at a missing packet (R182, R303) -/

/-- The marked slots. -/
def markedSlots (st : Station c) : Finset (Slot c) := Finset.univ.filter fun i => st.arrived.get i = true

theorem mem_markedSlots (i : Slot c) : i ∈ markedSlots st ↔ st.arrived.get i = true := by simp [markedSlots]

theorem card_markedSlots_le (st : Station c) : (markedSlots st).card ≤ c.nrBufs :=
  (Finset.card_le_univ _).trans_eq (Fintype.card_fin _)

theorem markedSlots_deliverExpected (p : Packet) :
    markedSlots (deliverExpected p st) = (markedSlots st).erase (seqSlot st.frameExpected) := by
  ext i
  rw [Finset.mem_erase, mem_markedSlots, mem_markedSlots, arrived_deliverExpected, bank_get_set]
  by_cases hi : i = seqSlot st.frameExpected <;> simp [hi]

theorem drainLoop_missing (k : Nat) {st st' : Station c} (hk : (markedSlots st).card ≤ k)
    (hr : drainLoop k st = .next st') : st'.arrived.get (seqSlot st'.frameExpected) = false := by
  induction k generalizing st with
  | zero =>
    cases hr
    rw [Bool.eq_false_iff, ne_eq, ← mem_markedSlots, Finset.card_eq_zero.1 (Nat.le_zero.1 hk)]
    exact Finset.notMem_empty _
  | succ k ih =>
    rw [drainLoop] at hr
    split at hr
    · next ha =>
      split at hr
      · cases hr
      · refine ih ?_ hr
        rw [markedSlots_deliverExpected, Finset.card_erase_of_mem ((mem_markedSlots _).2 ha)]
        omega
    · next ha =>
      cases hr
      exact Bool.eq_false_iff.2 ha

/-- R303 after step 3: the packet expected next is missing. -/
theorem onFrameDataStep3_missing {st st' : Station c} (hr : onFrameDataStep3 st = .next st') :
    st'.arrived.get (seqSlot st'.frameExpected) = false :=
  drainLoop_missing c.nrBufs (card_markedSlots_le st) hr

end Sys2Proof.Machine
end

section
/-! SUPPORT. What a channel holds (20_memory.md R70; 41_codec.md R147): a frame that a station transmits is a valid frame of
the channel, a string that fails `VALIDATE` is none. -/

namespace Sys2Proof.Machine
open Sys2Proof

variable {c : Config}

/-! ### A transmitted frame validates -/

theorem malformed_eq_false_of_frameOk {f : Frame} (h : frameOk c f = true) :
    malformed c (kindCode f.kind) f.ack f.seq (c.minLen + f.payload.length) = false := by
  obtain ⟨kind, a, q, p⟩ := f
  cases kind with
  | data =>
    simp_all [frameOk, seqOk, packetOk, malformed, kindCode, kindOf, Config.minLen, Config.maxLen]
    omega
  | ack => simp_all [frameOk, seqOk, malformed, kindCode, kindOf]
  | nak => simp_all [frameOk, seqOk, malformed, kindCode, kindOf]

/-- R147: `VALIDATE` of a serialized frame is the frame. -/
theorem validateInput_serializeFrame (hck : c.CkSound) {f : Frame} (h : frameOk c f = true) :
    validateInput c (some (serializeFrame c f)) = .frame f := by
  have hlen : ¬(serializeFrame c f).length < c.minLen := by
    rw [length_serializeFrame, Config.minLen, Config.hdrLen]
    omega
  have hres : c.residue (serializeFrame c f) = 0 := hck (frameBody f)
  have hparse := parseFrame_layout (c := c) (kindCode f.kind) f.ack f.seq f.payload (c.ck (frameBody f)) (length_ck _)
  rw [malformed_eq_false_of_frameOk h, kindOf_kindCode] at hparse
  simp only [validateInput, if_neg hlen, hres]
  exact hparse

theorem seqOk_ackByte (st : Station c) : seqOk c (ackByte st) = true := by
  rw [← zext8_piggyback]
  exact seqOk_zext8 _

theorem frameOk_control (st : Station c) {kind : Kind} (h : kind ≠ .data) :
    frameOk c ⟨kind, ackByte st, 0, []⟩ = true := by
  have h₀ : seqOk c 0 = true := decide_eq_true (Nat.zero_le _)
  cases kind <;> simp_all [frameOk, seqOk_ackByte]

theorem frameOk_data (st : Station c) (q : Seq c) {p : Packet} (h : packetOk c p = true) :
    frameOk c ⟨.data, ackByte st, zext8 q, p⟩ = true := by
  simp [frameOk, seqOk_ackByte, seqOk_zext8, h]

theorem packetOk_of_validate {input : Option Bytes} {f : Frame} (h : validateInput c input = .frame f)
    (hk : f.kind = .data) : packetOk c f.payload = true := by
  obtain ⟨_, _, _, _, _, _, hf⟩ := validate_eq_frame h
  rw [frameOk, hk] at hf
  simp_all

/-! ### The frames of a channel -/

theorem validFrames_cons_frame {r : Option Bytes} {f : Frame} (h : validateInput c r = .frame f)
    (wire : List (Option Bytes)) : validFrames c (r :: wire) = f :: validFrames c wire := by
  rw [validFrames, List.filterMap_cons, h]
  rfl

theorem validFrames_cons_corrupt {r : Option Bytes} (h : validateInput c r = .corruptionError)
    (wire : List (Option Bytes)) : validFrames c (r :: wire) = validFrames c wire := by
  rw [validFrames, List.filterMap_cons, h]
  rfl

theorem validFrames_transmit (hck : c.CkSound) {f : Frame} (h : frameOk c f = true) (wire : List (Option Bytes)) :
    validFrames c (wire ++ [some (serializeFrame c f)]) = validFrames c wire ++ [f] := by
  rw [validFrames, List.filterMap_append]
  exact congrArg _ (validFrames_cons_frame (validateInput_serializeFrame hck h) [])

theorem dataFrames_transmit (hck : c.CkSound) {f : Frame} (h : frameOk c f = true) (wire : List (Option Bytes)) :
    dataFrames c (wire ++ [some (serializeFrame c f)])
      = dataFrames c wire ++ if f.kind = .data then [f] else [] := by
  rw [dataFrames, validFrames_transmit hck h, List.filter_append]
  by_cases hk : f.kind = .data <;> simp [hk, dataFrames]

/-- The channel `wire'` holds the frames of `wire` but for some of the oldest. -/
def LosesOldest (c : Config) (wire wire' : List (Option Bytes)) : Prop :=
  (∃ n, validFrames c wire' = (validFrames c wire).drop n) ∧ ∃ n, dataFrames c wire' = (dataFrames c wire).drop n

/-- R70 (a), (c): the oldest string leaves the channel. -/
theorem losesOldest_tail (r : Option Bytes) (wire : List (Option Bytes)) : LosesOldest c (r :: wire) wire := by
  unfold LosesOldest dataFrames
  cases h : validateInput c r with
  | corruptionError =>
    rw [validFrames_cons_corrupt h]
    exact ⟨⟨0, rfl⟩, 0, rfl⟩
  | frame f =>
    rw [validFrames_cons_frame h, List.filter_cons]
    refine ⟨⟨1, rfl⟩, ?_⟩
    split
    · exact ⟨1, rfl⟩
    · exact ⟨0, rfl⟩

/-- R70 (b), R71: the oldest string is damaged, and the damage is detected. -/
theorem losesOldest_damage (r : Option Bytes) {r' : Option Bytes} (h : validateInput c r' = .corruptionError)
    (wire : List (Option Bytes)) : LosesOldest c (r :: wire) (r' :: wire) := by
  have := losesOldest_tail (c := c) r wire
  unfold LosesOldest dataFrames at this ⊢
  rwa [validFrames_cons_corrupt h]

/-! ### What a handler's outputs add at its end -/

theorem settle_self {e : LinkEnd c} (h : e.station.outs = []) : e.settle e.station = e := by
  obtain ⟨st, supply, got, wire⟩ := e
  obtain ⟨⟩ := st
  cases h
  simp [LinkEnd.settle, delivered, transmitted]

theorem settle_transmit (e : LinkEnd c) (bs : Bytes) (st : Station c) :
    e.settle (transmit bs st) = { e.settle st with wire := (e.settle st).wire ++ [some bs] } := by
  simp [LinkEnd.settle, transmit, delivered, transmitted]

/-- Registers that nothing is handed over from, while the transmissions and the deliveries stay as they are. -/
theorem settle_other_registers (e : LinkEnd c) (st : Station c) (dataTimer : Vector (DataTimer c) c.nrBufs)
    (ackTimer : AckTimer) (noNak chReady intakeEn : Bool) {outs : List Output}
    (htransmitted : transmitted outs = transmitted st.outs) (hdelivered : delivered outs = delivered st.outs) :
    e.settle { st with dataTimer, ackTimer, noNak, chReady, intakeEn, outs } = { e.settle st with
      station := { (e.settle st).station with dataTimer, ackTimer, noNak, chReady, intakeEn, outs := [] } } := by
  simp [LinkEnd.settle, htransmitted, hdelivered]

theorem settle_onFrameDataStep2 (e : LinkEnd c) (q : Seq c) (p : Packet) (st : Station c) :
    e.settle (onFrameDataStep2 q p st) =
      { e.settle st with station := onFrameDataStep2 q p (e.settle st).station } := by
  by_cases h : seqBetween st.frameExpected q st.tooFar = true ∧ st.arrived.get (seqSlot q) = false
  · rw [onFrameDataStep2, if_pos h, onFrameDataStep2, if_pos (by exact h)]
    rfl
  · rw [onFrameDataStep2, if_neg h, onFrameDataStep2, if_neg (by exact h)]

theorem settle_deliverExpected (e : LinkEnd c) (p : Packet) (st : Station c) :
    e.settle (deliverExpected p st) =
      { e.settle st with
        station := { deliverExpected p (e.settle st).station with outs := [] }
        got := (e.settle st).got ++ [p] } := by
  simp [LinkEnd.settle, deliverExpected, deliver, startAckTimer, delivered, transmitted]

end Sys2Proof.Machine
end

section
/-! SUPPORT. The flow of packets from one end to the other (20_memory.md R73, R78, R79): what it says of the oldest frames in
the channels, and one lemma for each action of either end and of either channel that it survives. -/

namespace Sys2Proof.Machine
open Sys2Proof

variable {c : Config} {supply taken : List Packet} {sent acked : List Nat} {x y : LinkEnd c}

namespace Flow

/-! ### The counts behind the registers -/

theorem ackExpected_eq (h : Flow supply taken sent acked x y) :
    x.station.ackExpected = BitVec.ofNat c.n (taken.length - x.station.nbuffered.toNat) :=
  (toNat_eq_mod_iff _ _).1 h.lower

theorem nextFrameToSend_eq (h : Flow supply taken sent acked x y) :
    x.station.nextFrameToSend = BitVec.ofNat c.n taken.length :=
  (toNat_eq_mod_iff _ _).1 h.upper

theorem frameExpected_eq (h : Flow supply taken sent acked x y) :
    y.station.frameExpected = BitVec.ofNat c.n y.got.length :=
  (toNat_eq_mod_iff _ _).1 h.expected

theorem length_got_le (h : Flow supply taken sent acked x y) : y.got.length ≤ taken.length := by
  have := congrArg List.length h.inOrder
  rw [List.length_take] at this
  omega

theorem sent_lt (h : Flow supply taken sent acked x y) : ∀ k ∈ sent, k < taken.length :=
  ((List.forall₂_and_left (R := fun _ _ => True) _ _).1
    (List.Forall₂.flip (h.carried.imp fun _ _ hk => ⟨(List.getElem?_eq_some_iff.1 hk.2).1, trivial⟩))).1

/-- The outstanding numbers are those of the packets taken last, and their output slots hold these packets. -/
theorem exists_count_of_outstanding (h : Flow supply taken sent acked x y) (hb : x.station.nbuffered.toNat ≤ c.nrBufs)
    {q : Seq c} (hq : outstanding x.station q) : ∃ k, k < taken.length ∧ taken.length ≤ k + x.station.nbuffered.toNat ∧
      q = BitVec.ofNat c.n k ∧ x.station.outBuf.read (seqSlot q) = taken[k]? := by
  rw [outstanding_iff_count h.ackExpected_eq h.nextFrameToSend_eq (by omega) (by omega)] at hq
  obtain ⟨k, hlo, hhi, rfl⟩ := hq
  exact ⟨k, hhi, by omega, rfl, h.held k hhi (by omega)⟩

/-! ### The oldest frames in the channels -/

/-- The oldest acknowledgement in the channel of the receiver is the least. -/
theorem exists_oldest_ack (h : Flow supply taken sent acked x y) {f : Frame} {fs : List Frame}
    (hw : validFrames c y.wire = f :: fs) :
    ∃ v ∈ acked, f.ack.toNat = (v + c.maxSeq) % c.M ∧ ∀ w ∈ acked, v ≤ w := by
  have hack := h.acknowledged
  rw [hw] at hack
  cases hack with
  | cons hv _ =>
    exact ⟨_, List.mem_cons_self, hv, List.forall_mem_cons.2 ⟨Nat.le_refl _, (List.pairwise_cons.1 h.ackOrder).1⟩⟩

/-- The oldest DATA frame in the channel of the sender is less than `NR_BUFS` ahead of any other. -/
theorem exists_oldest_data (h : Flow supply taken sent acked x y) {f : Frame} {fs : List Frame}
    (hw : dataFrames c x.wire = f :: fs) :
    ∃ k ∈ sent, f.seq.toNat = k % c.M ∧ taken[k]? = some f.payload ∧ ∀ j ∈ sent, k < j + c.nrBufs := by
  have hpos := c.nrBufs_pos
  have hdata := h.carried
  rw [hw] at hdata
  cases hdata with
  | cons hk _ =>
    exact ⟨_, List.mem_cons_self, hk.1, hk.2,
      List.forall_mem_cons.2 ⟨by omega, (List.pairwise_cons.1 h.fresh).1⟩⟩

/-! ### What neither end's part in the flow depends on -/

theorem sender_other_registers (h : Flow supply taken sent acked x y) (dataTimer : Vector (DataTimer c) c.nrBufs)
    (ackTimer : AckTimer) (noNak chReady intakeEn : Bool) (outs : List Output) :
    Flow supply taken sent acked
      { x with station := { x.station with dataTimer, ackTimer, noNak, chReady, intakeEn, outs } } y := { h with }

theorem receiver_other_registers (h : Flow supply taken sent acked x y) (dataTimer : Vector (DataTimer c) c.nrBufs)
    (ackTimer : AckTimer) (noNak chReady intakeEn : Bool) (outs : List Output) :
    Flow supply taken sent acked x
      { y with station := { y.station with dataTimer, ackTimer, noNak, chReady, intakeEn, outs } } := { h with }

theorem sender_onFrameDataStep2 (h : Flow supply taken sent acked x y) (q : Seq c) (p : Packet) :
    Flow supply taken sent acked { x with station := Machine.onFrameDataStep2 q p x.station } y := by
  rw [onFrameDataStep2_frame]
  exact { h with }

/-! ### The channels -/

theorem sender_losesOldest (h : Flow supply taken sent acked x y) {wire : List (Option Bytes)}
    (hw : LosesOldest c x.wire wire) : ∃ sent', Flow supply taken sent' acked { x with wire } y := by
  obtain ⟨-, n, hn⟩ := hw
  exact ⟨sent.drop n, { h with
    carried := by rw [hn]; exact List.forall₂_drop n h.carried
    fresh := h.fresh.drop
    freshForReceiver := fun k hk => h.freshForReceiver k (List.mem_of_mem_drop hk) }⟩

theorem receiver_losesOldest (h : Flow supply taken sent acked x y) {wire : List (Option Bytes)}
    (hw : LosesOldest c y.wire wire) : ∃ acked', Flow supply taken sent acked' x { y with wire } := by
  obtain ⟨⟨n, hn⟩, -⟩ := hw
  exact ⟨acked.drop n, { h with
    acknowledged := by rw [hn]; exact List.forall₂_drop n h.acknowledged
    ackOrder := h.ackOrder.drop
    ackRange := fun v hv => h.ackRange v (List.mem_of_mem_drop hv) }⟩

/-- An outstanding packet is sent: it is no more than `NR_BUFS` behind any other. -/
theorem send_data (h : Flow supply taken sent acked x y) (hck : c.CkSound) (hb : x.station.nbuffered.toNat ≤ c.nrBufs)
    {f : Frame} (hf : frameOk c f = true) (hkind : f.kind = .data) {k : Nat} (hseq : f.seq.toNat = k % c.M)
    (hpay : taken[k]? = some f.payload) (hk : taken.length ≤ k + x.station.nbuffered.toNat) :
    Flow supply taken (sent ++ [k]) acked { x with wire := x.wire ++ [some (serializeFrame c f)] } y :=
  { h with
    carried := by
      rw [dataFrames_transmit hck hf, if_pos hkind]
      exact List.rel_append h.carried (.cons ⟨hseq, hpay⟩ .nil)
    fresh := List.pairwise_append.2 ⟨h.fresh, List.pairwise_singleton _ _, fun j hj k' hk' => by
      have := h.sent_lt j hj
      rw [List.mem_singleton.1 hk']
      omega⟩
    freshForReceiver := by
      have hgot := h.length_got_le
      refine List.forall_mem_append.2 ⟨h.freshForReceiver, List.forall_mem_singleton.2 ⟨by omega, fun j hj hm => ?_⟩⟩
      have := (h.stored j hj hm).1
      omega }

theorem send_control (h : Flow supply taken sent acked x y) (hck : c.CkSound) {f : Frame} (hf : frameOk c f = true)
    (hkind : f.kind ≠ .data) :
    Flow supply taken sent acked { x with wire := x.wire ++ [some (serializeFrame c f)] } y :=
  { h with
    carried := by
      rw [dataFrames_transmit hck hf, if_neg hkind, List.append_nil]
      exact h.carried }

/-- Every frame the receiver sends acknowledges its deliveries (R94, R142). -/
theorem acknowledge (h : Flow supply taken sent acked x y) (hck : c.CkSound) {f : Frame} (hf : frameOk c f = true)
    (hack : f.ack = ackByte y.station) : Flow supply taken sent (acked ++ [y.got.length]) x
      { y with wire := y.wire ++ [some (serializeFrame c f)] } :=
  { h with
    acknowledged := by
      rw [validFrames_transmit hck hf]
      refine List.rel_append h.acknowledged (.cons ?_ .nil)
      rw [hack, ← zext8_piggyback, toNat_zext8, piggyback, h.frameExpected_eq, seqPred, toNat_ofNat_seq, toNat_ofNat_seq,
        Nat.mod_add_mod]
    ackOrder := List.pairwise_append.2 ⟨h.ackOrder, List.pairwise_singleton _ _, fun v hv w hw => by
      rw [List.mem_singleton.1 hw]
      exact (h.ackRange v hv).2⟩
    ackRange := List.forall_mem_append.2 ⟨h.ackRange, List.forall_mem_singleton.2 ⟨h.notBehind, Nat.le_refl _⟩⟩ }

/-! ### The sender -/

/-- SUBMIT takes the producer's next packet (R160). -/
theorem enqueue (h : Flow supply taken sent acked x y) {p : Packet} {rest : List Packet} (hs : x.supply = p :: rest)
    (hroom : x.station.nbuffered.toNat < c.nrBufs) :
    Flow supply (taken ++ [p]) sent acked { x with supply := rest, station := Machine.enqueue p x.station } y := by
  have hlen : (taken ++ [p]).length = taken.length + 1 := List.length_append
  have hnb := toNat_nbuffered_enqueue p hroom
  have hold : ∀ k < taken.length, (taken ++ [p])[k]? = taken[k]? := fun k hk => List.getElem?_append_left hk
  have hbuf := h.buffered
  have hgot := h.length_got_le
  exact { h with
    offered := by rw [h.offered, hs, List.append_assoc]; rfl
    buffered := by rw [hnb, hlen]; omega
    upper := by
      rw [toNat_eq_mod_iff, hlen, ← seqInc_ofNat, ← h.nextFrameToSend_eq]
      rfl
    lower := by
      rw [hnb, hlen, Nat.add_sub_add_right]
      exact h.lower
    inOrder := by
      rw [List.take_append_of_le_length hgot]
      exact h.inOrder
    notBehind := by
      have := h.notBehind
      rw [hnb, hlen]
      omega
    held := fun k hk hlate => by
      rw [hlen] at hk hlate
      rw [hnb] at hlate
      rw [outBuf_enqueue, h.nextFrameToSend_eq]
      rcases Nat.lt_succ_iff_lt_or_eq.1 hk with hk | rfl
      · rw [hold k hk, read_write_ne, h.held k hk (by omega)]
        intro e
        have := slotOfNth_inj_of_near e (by omega) (by omega)
        omega
      · rw [slotOfNth, read_write_self, List.getElem?_concat_length]
    stored := fun j hj hm => by
      obtain ⟨hlt, hread⟩ := h.stored j hj hm
      exact ⟨by omega, by rw [hold _ hlt]; exact hread⟩
    carried := h.carried.imp fun f k hk => ⟨hk.1, by
      rw [hold k (List.getElem?_eq_some_iff.1 hk.2).1]
      exact hk.2⟩
    ackRange := fun v hv => by
      have := h.ackRange v hv
      rw [hnb, hlen]
      omega }

/-- `ACK_PROGRESS` retires the oldest packet: every acknowledgement in the channel covers it (R161). -/
theorem retireOldest (h : Flow supply taken sent acked x y) {v : Nat} (hv : v ∈ acked) (hmin : ∀ w ∈ acked, v ≤ w)
    (hlate : taken.length < v + x.station.nbuffered.toNat) :
    Flow supply taken sent acked { x with station := Machine.retireOldest x.station } y := by
  have hrange := (h.ackRange v hv).2
  have hgot := h.length_got_le
  have hbuf := h.buffered
  have hnb : (Machine.retireOldest x.station).nbuffered.toNat = _ := toNat_nbuffered_retireOldest (by omega)
  exact { h with
    buffered := by rw [hnb]; omega
    lower := by
      rw [toNat_eq_mod_iff, hnb, ackExpected_retireOldest, h.ackExpected_eq, seqInc_ofNat]
      congr 1
      omega
    notBehind := by rw [hnb]; omega
    held := fun k hk hlow => h.held k hk (by rw [hnb] at hlow; omega)
    ackRange := fun w hw => by
      have := h.ackRange w hw
      have := hmin w hw
      rw [hnb]
      omega }

/-! ### The receiver -/

/-- Step 2 with the oldest DATA frame of the channel (R181): it is marked only if it is ahead of the deliveries. -/
theorem onFrameDataStep2 (h : Flow supply taken sent acked x y) (hb : x.station.nbuffered.toNat ≤ c.nrBufs)
    (hwin : y.station.tooFar = seqAddw y.station.frameExpected) {k : Nat} {p : Packet} (hk : k ∈ sent)
    (hp : taken[k]? = some p) (hmin : ∀ j ∈ sent, k < j + c.nrBufs) :
    Flow supply taken sent acked x { y with station := Machine.onFrameDataStep2 (BitVec.ofNat c.n k) p y.station } := by
  have hM := M_eq_two_nrBufs c
  have hkt : k < taken.length := (List.getElem?_eq_some_iff.1 hp).1
  have hnear := (h.freshForReceiver k hk).1
  have hbehind := h.notBehind
  rw [Machine.onFrameDataStep2]
  split
  case isFalse => exact h
  next hacc =>
    obtain ⟨hacc, -⟩ := hacc
    rw [hwin, h.frameExpected_eq, seqAddw_ofNat, seqBetween_ofNat_iff (by omega) (by have := c.nrBufs_pos; omega)] at hacc
    obtain ⟨k', hlo, hhi, e⟩ := hacc
    obtain rfl := ofNat_seq_inj_of_near e (by omega) (by omega)
    have hmarked : ∀ j < c.nrBufs, slotOfNth c (y.got.length + j) = slotOfNth c k → y.got.length + j = k :=
      fun j hj e => slotOfNth_inj_of_near e (by omega) (by omega)
    exact { h with
      stored := fun j hj hm => by
        by_cases e : slotOfNth c (y.got.length + j) = slotOfNth c k
        · rw [e, hmarked j hj e]
          exact ⟨hkt, (read_write_self _ _ p).trans hp.symm⟩
        · refine (h.stored j hj ?_).imp_right fun hr => (read_write_ne _ p e).trans hr
          exact (bank_get_set_ne _ _ e).symm.trans hm
      freshForReceiver := fun k' hk' => ⟨(h.freshForReceiver k' hk').1, fun j hj hm => by
        by_cases e : slotOfNth c (y.got.length + j) = slotOfNth c k
        · rw [hmarked j hj e]
          exact hmin k' hk'
        · exact (h.freshForReceiver k' hk').2 j hj ((bank_get_set_ne _ _ e).symm.trans hm)⟩ }

/-- One round of the drain loop hands over the next packet (R182). -/
theorem deliverExpected (h : Flow supply taken sent acked x y) {p : Packet}
    (hmark : y.station.arrived.get (seqSlot y.station.frameExpected) = true)
    (hread : y.station.inBuf.read (seqSlot y.station.frameExpected) = some p) :
    Flow supply taken sent acked x
      { y with station := Machine.deliverExpected p y.station, got := y.got ++ [p] } := by
  have hslot : seqSlot y.station.frameExpected = slotOfNth c y.got.length := by rw [h.frameExpected_eq]; rfl
  have hlen : (y.got ++ [p]).length = y.got.length + 1 := List.length_append
  rw [hslot] at hmark hread
  obtain ⟨hlt, hnext⟩ := h.stored 0 c.nrBufs_pos hmark
  rw [Nat.add_zero] at hlt hnext
  have hold : ∀ j < c.nrBufs, (Machine.deliverExpected p y.station).arrived.get (slotOfNth c (y.got.length + 1 + j)) = true →
      j + 1 < c.nrBufs ∧ y.station.arrived.get (slotOfNth c (y.got.length + (j + 1))) = true := fun j hj hm => by
    rw [arrived_deliverExpected, bank_get_set, hslot] at hm
    split at hm
    · cases hm
    · next hne =>
      rw [Nat.add_right_comm] at hne hm
      refine ⟨?_, hm⟩
      by_contra hN
      rw [Nat.add_assoc, show j + 1 = c.nrBufs by omega] at hne
      exact hne (slotOfNth_add_nrBufs _)
  exact { h with
    inOrder := by
      rw [hlen, List.take_add_one, ← h.inOrder, ← hnext, hread]
      rfl
    expected := by
      rw [toNat_eq_mod_iff, hlen, ← seqInc_ofNat, ← h.frameExpected_eq]
      rfl
    notBehind := by
      have := h.notBehind
      rw [hlen]
      omega
    stored := fun j hj hm => by
      rw [hlen] at hm ⊢
      obtain ⟨hj', hm'⟩ := hold j hj hm
      rw [Nat.add_right_comm]
      exact h.stored (j + 1) hj' hm'
    freshForReceiver := fun k hk => by
      rw [hlen]
      refine ⟨(h.freshForReceiver k hk).2 0 c.nrBufs_pos hmark, fun j hj hm => ?_⟩
      obtain ⟨hj', hm'⟩ := hold j hj hm
      rw [Nat.add_right_comm]
      exact (h.freshForReceiver k hk).2 (j + 1) hj' hm'
    ackRange := fun v hv => by
      have := h.ackRange v hv
      rw [hlen]
      omega }

end Flow

end Sys2Proof.Machine
end

section
/-! SUPPORT. The link inside a handler (60_exceptions.md R268): with the handler's outputs so far handed over, the packets
flow both ways. Every action of every handler keeps that, so every event does, and so does every step of a channel. -/

namespace Sys2Proof.Machine
open Sys2Proof

variable {c : Config} {supplyMe supplyPeer : List Packet} {me peer : LinkEnd c} {st st' : Station c}

/-- The packets of `supplyX` flow from `x` to `y`, and those of `supplyY` from `y` to `x`. -/
structure BothFlow (supplyX supplyY : List Packet) (x y : LinkEnd c) : Prop where
  outward : ∃ taken sent acked, Flow supplyX taken sent acked x y
  inward : ∃ taken sent acked, Flow supplyY taken sent acked y x

theorem BothFlow.symm {supplyX supplyY : List Packet} {x y : LinkEnd c} (h : BothFlow supplyX supplyY x y) :
    BothFlow supplyY supplyX y x := ⟨h.inward, h.outward⟩

/-- The oldest frames of a channel are lost, for its data and for its acknowledgements. -/
theorem BothFlow.losesOldest {supplyX supplyY : List Packet} {x y : LinkEnd c} (h : BothFlow supplyX supplyY x y)
    {wire : List (Option Bytes)} (hw : LosesOldest c x.wire wire) : BothFlow supplyX supplyY { x with wire } y := by
  obtain ⟨⟨_, _, _, hout⟩, _, _, _, hin⟩ := h
  obtain ⟨_, hout⟩ := hout.sender_losesOldest hw
  obtain ⟨_, hin⟩ := hin.receiver_losesOldest hw
  exact ⟨⟨_, _, _, hout⟩, _, _, _, hin⟩

/-- What holds after every action of a handler of the end `me`, where its station is `st` and the peer waits. -/
structure InHandler (supplyMe supplyPeer : List Packet) (me peer : LinkEnd c) (st : Station c) : Prop where
  core : st.CoreInv
  peerBounded : peer.station.nbuffered.toNat ≤ c.nrBufs
  flows : BothFlow supplyMe supplyPeer (me.settle st) peer

namespace InHandler

/-! ### The actions -/

/-- Nothing is sent or handed over, and only registers that the flows do not depend on change. -/
theorem other_registers (h : InHandler supplyMe supplyPeer me peer st) {dataTimer : Vector (DataTimer c) c.nrBufs}
    {ackTimer : AckTimer} {noNak chReady intakeEn : Bool} {outs : List Output}
    (hcore : Station.CoreInv { st with dataTimer, ackTimer, noNak, chReady, intakeEn, outs })
    (htransmitted : transmitted outs = transmitted st.outs) (hdelivered : delivered outs = delivered st.outs) :
    InHandler supplyMe supplyPeer me peer { st with dataTimer, ackTimer, noNak, chReady, intakeEn, outs } := by
  obtain ⟨-, hpeer, ⟨_, _, _, hout⟩, _, _, _, hin⟩ := h
  refine ⟨hcore, hpeer, ?_⟩
  rw [settle_other_registers me st _ _ _ _ _ htransmitted hdelivered]
  exact ⟨⟨_, _, _, hout.sender_other_registers ..⟩, _, _, _, hin.receiver_other_registers ..⟩

theorem clearNoNak (h : InHandler supplyMe supplyPeer me peer st) :
    InHandler supplyMe supplyPeer me peer (clearNoNak st) :=
  h.other_registers (h.core.other_registers ..) rfl rfl

theorem setChReady (h : InHandler supplyMe supplyPeer me peer st) :
    InHandler supplyMe supplyPeer me peer (setChReady st) :=
  h.other_registers (h.core.other_registers ..) rfl rfl

theorem startAckTimer (h : InHandler supplyMe supplyPeer me peer st) :
    InHandler supplyMe supplyPeer me peer (startAckTimer st) :=
  h.other_registers (h.core.other_registers ..) rfl rfl

theorem stopAckTimer (h : InHandler supplyMe supplyPeer me peer st) :
    InHandler supplyMe supplyPeer me peer (stopAckTimer st) :=
  h.other_registers (h.core.other_registers ..) rfl rfl

theorem startDataTimer (h : InHandler supplyMe supplyPeer me peer st) {q : Seq c} (hq : outstanding st q) :
    InHandler supplyMe supplyPeer me peer (startDataTimer q st) :=
  h.other_registers (h.core.startDataTimer hq) rfl rfl

theorem gate (h : InHandler supplyMe supplyPeer me peer st) : InHandler supplyMe supplyPeer me peer (gate st) :=
  h.other_registers (h.core.other_registers ..) (by simp [transmitted]) (by simp [delivered])

/-- An ACK or a NAK is sent (R140). -/
theorem transmit_control (h : InHandler supplyMe supplyPeer me peer st) (hck : c.CkSound) {kind : Kind}
    (hkind : kind ≠ .data) : InHandler supplyMe supplyPeer me peer
      (transmit (serializeFrame c ⟨kind, ackByte st, 0, []⟩) st) := by
  obtain ⟨hcore, hpeer, ⟨_, _, _, hout⟩, _, _, _, hin⟩ := h
  have hf := frameOk_control st hkind
  refine ⟨hcore.other_registers .., hpeer, ?_⟩
  rw [settle_transmit]
  exact ⟨⟨_, _, _, hout.send_control hck hf hkind⟩, _, _, _, hin.acknowledge hck hf rfl⟩

/-- An outstanding packet is sent from its slot (R140). -/
theorem transmit_data (h : InHandler supplyMe supplyPeer me peer st) (hck : c.CkSound) {q : Seq c} {p : Packet}
    (hq : outstanding st q) (hp : st.outBuf.read (seqSlot q) = some p) : InHandler supplyMe supplyPeer me peer
      (transmit (serializeFrame c ⟨.data, ackByte st, zext8 q, p⟩) st) := by
  obtain ⟨hcore, hpeer, ⟨_, _, _, hout⟩, _, _, _, hin⟩ := h
  have hf := frameOk_data st q ((memory_wf_iff _).1 hcore.outFits _ _ hp)
  obtain ⟨k, -, hlow, rfl, hread⟩ := hout.exists_count_of_outstanding hcore.bounded hq
  refine ⟨hcore.other_registers .., hpeer, ?_⟩
  rw [settle_transmit]
  refine ⟨⟨_, _, _, hout.send_data hck hcore.bounded hf rfl (k := k) ?_ (hread.symm.trans hp) hlow⟩, _, _, _,
    hin.acknowledge hck hf rfl⟩
  rw [toNat_zext8, toNat_ofNat_seq]

/-- TIMEOUT_RESEND and NAK_RESEND (R162, R163). -/
theorem resend (h : InHandler supplyMe supplyPeer me peer st) (hck : c.CkSound) {q : Seq c} {p : Packet}
    (hq : outstanding st q) (hp : st.outBuf.read (seqSlot q) = some p) : InHandler supplyMe supplyPeer me peer
      (Machine.startDataTimer q (transmit (serializeFrame c ⟨.data, ackByte st, zext8 q, p⟩) st)) :=
  (h.transmit_data hck hq hp).startDataTimer hq

/-- SUBMIT of the producer's next packet (R160). -/
theorem transmit_enqueue (h : InHandler supplyMe supplyPeer me peer st) (hck : c.CkSound) {p : Packet} {rest : List Packet}
    (hs : me.supply = p :: rest) (hp : packetOk c p = true) (hroom : st.nbuffered.toNat < c.nrBufs) :
    InHandler supplyMe supplyPeer { me with supply := rest } peer
      (transmit (serializeFrame c ⟨.data, ackByte st, zext8 st.nextFrameToSend, p⟩) (enqueue p st)) := by
  obtain ⟨hcore, hpeer, ⟨_, _, _, hout⟩, _, _, _, hin⟩ := h
  have henqueue : InHandler supplyMe supplyPeer { me with supply := rest } peer (enqueue p st) :=
    ⟨hcore.enqueue hp hroom, hpeer, ⟨_, _, _, hout.enqueue hs hroom⟩, _, _, _, { hin with }⟩
  exact henqueue.transmit_data hck ((outstanding_enqueue hcore p hroom _).2 (.inr rfl)) (read_write_self _ _ p)

/-- `ACK_PROGRESS` with the oldest acknowledgement in the peer's channel (R161). -/
theorem ackProgress (h : InHandler supplyMe supplyPeer me peer st) {f : Frame} {fs : List Frame}
    (hw : validFrames c peer.wire = f :: fs) : InHandler supplyMe supplyPeer me peer (ackProgress (seqOf c f.ack) st) := by
  refine ackLoop_induct st _ (InHandler supplyMe supplyPeer me peer) (fun st htest h => ?_) c.M h
  obtain ⟨hcore, hpeer, ⟨taken, sent, acked, hout⟩, _, _, _, hin⟩ := h
  obtain ⟨v, hv, hf, hmin⟩ := hout.exists_oldest_ack hw
  have hlate : taken.length < v + st.nbuffered.toNat := by
    obtain ⟨k, hk, hlow, e, -⟩ := hout.exists_count_of_outstanding hcore.bounded htest
    change taken.length ≤ k + st.nbuffered.toNat at hlow
    have hsucc := (seqInc_seqOf_ack hf).symm
    rw [e, seqInc_ofNat] at hsucc
    have hrange : taken.length ≤ v + st.nbuffered.toNat ∧ v ≤ peer.got.length := hout.ackRange v hv
    have hgot := hout.length_got_le
    have hb := hcore.bounded
    have hM := M_eq_two_nrBufs c
    have := ofNat_seq_inj_of_near hsucc (by omega) (by omega)
    omega
  have hpos := nbuffered_pos_of_outstanding hcore htest
  exact ⟨hcore.retireOldest hpos, hpeer, ⟨_, _, _, hout.retireOldest hv hmin hlate⟩, _, _, _, { hin with }⟩

/-- Step 2 of `ON_FRAME_DATA` with the oldest DATA frame in the peer's channel (R181). -/
theorem onFrameDataStep2 (h : InHandler supplyMe supplyPeer me peer st) {f : Frame} {fs : List Frame}
    (hw : dataFrames c peer.wire = f :: fs) (hp : packetOk c f.payload = true) :
    InHandler supplyMe supplyPeer me peer (onFrameDataStep2 (seqOf c f.seq) f.payload st) := by
  obtain ⟨hcore, hpeer, ⟨_, _, _, hout⟩, _, _, _, hin⟩ := h
  obtain ⟨k, hk, hf, hpay, hmin⟩ := hin.exists_oldest_data hw
  refine ⟨hcore.onFrameDataStep2 _ hp, hpeer, ?_⟩
  rw [settle_onFrameDataStep2, seqOf_eq_ofNat_of_mod hf]
  exact ⟨⟨_, _, _, hout.sender_onFrameDataStep2 _ _⟩, _, _, _, hin.onFrameDataStep2 hpeer hcore.window hk hpay hmin⟩

/-- Step 3 of `ON_FRAME_DATA` (R182). -/
theorem onFrameDataStep3 (h : InHandler supplyMe supplyPeer me peer st) (hr : onFrameDataStep3 st = .next st') :
    InHandler supplyMe supplyPeer me peer st' := by
  refine drainLoop_induct st (InHandler supplyMe supplyPeer me peer) (fun st p hmark hread h => ?_) c.nrBufs h hr
  obtain ⟨hcore, hpeer, ⟨_, _, _, hout⟩, _, _, _, hin⟩ := h
  refine ⟨hcore.deliverExpected p, hpeer, ?_⟩
  rw [settle_deliverExpected]
  exact ⟨⟨_, _, _, { hout with }⟩, _, _, _, { hin.deliverExpected hmark hread with }⟩

end InHandler

/-! ### The handlers -/

theorem outstanding_of_armedFor (h : st.CoreInv) {q : Seq c} (ha : armedFor q st = true) : outstanding st q := by
  obtain ⟨harmed, hseq⟩ := (armedFor_iff st q).1 ha
  obtain ⟨r, hr, hs⟩ := (h.timersArmed _).1 harmed
  have := h.timersSeq r hr
  rw [hs, hseq] at this
  exact this ▸ hr

/-- What holds after an action of a handler that leaves the next expected packet missing (R303). -/
structure Drained (supplyMe supplyPeer : List Packet) (me peer : LinkEnd c) (st : Station c) : Prop
    extends InHandler supplyMe supplyPeer me peer st where
  missing : st.arrived.get (seqSlot st.frameExpected) = false

namespace Drained

theorem timeoutResend (h : Drained supplyMe supplyPeer me peer st) (hck : c.CkSound) {q : Seq c}
    (hr : timeoutResend q st = .next st') : Drained supplyMe supplyPeer me peer st' := by
  by_cases ha : armedFor q st = true
  · have hq := outstanding_of_armedFor h.core ha
    obtain ⟨p, hp⟩ := Option.isSome_iff_exists.1 (h.core.outWritten q hq)
    rw [timeoutResend_next st ha hp] at hr
    cases hr
    exact ⟨h.resend hck hq hp, h.missing⟩
  · rw [Machine.timeoutResend, if_neg ha] at hr
    cases hr

theorem nakResend (h : Drained supplyMe supplyPeer me peer st) (hck : c.CkSound) {a : Seq c}
    (hr : nakResend a st = .next st') : Drained supplyMe supplyPeer me peer st' := by
  by_cases hq : outstanding st (seqInc a)
  · obtain ⟨p, hp⟩ := Option.isSome_iff_exists.1 (h.core.outWritten _ hq)
    rw [nakResend_next st hq hp] at hr
    cases hr
    exact ⟨h.resend hck hq hp, h.missing⟩
  · rw [nakResend_idle st (Bool.eq_false_iff.2 hq)] at hr
    cases hr
    exact h

theorem corruptNak (h : Drained supplyMe supplyPeer me peer st) (hck : c.CkSound)
    (hr : corruptNak st = .next st') : Drained supplyMe supplyPeer me peer st' := by
  rw [corruptNak_cases] at hr
  cases hr
  split
  · exact ⟨(h.transmit_control hck (kind := .nak) (by decide)).clearNoNak, h.missing⟩
  · exact h

theorem submit (h : Drained supplyMe supplyPeer me peer st) (hck : c.CkSound) {p : Packet} {rest : List Packet}
    (hs : me.supply = p :: rest) (hp : packetOk c p = true) (hr : submit p st = .next st') :
    Drained supplyMe supplyPeer { me with supply := rest } peer st' := by
  obtain ⟨hroom, rfl⟩ := submit_eq_next hr
  exact ⟨h.transmit_enqueue hck hs hp hroom, h.missing⟩

theorem ackProgress (h : Drained supplyMe supplyPeer me peer st) {f : Frame} {fs : List Frame}
    (hw : validFrames c peer.wire = f :: fs) :
    Drained supplyMe supplyPeer me peer (ackProgress (seqOf c f.ack) st) := by
  refine ⟨h.toInHandler.ackProgress hw, ?_⟩
  rw [ackProgress_frame]
  exact h.missing

end Drained

theorem InHandler.onFrameData (h : InHandler supplyMe supplyPeer me peer st) (hck : c.CkSound) {f : Frame} {fs : List Frame}
    (hw : dataFrames c peer.wire = f :: fs) (hp : packetOk c f.payload = true)
    (hr : onFrameData (seqOf c f.seq) f.payload st = .next st') : Drained supplyMe supplyPeer me peer st' := by
  rw [Machine.onFrameData, onFrameDataStep1_cases, chain_next] at hr
  refine ⟨InHandler.onFrameDataStep3 (InHandler.onFrameDataStep2 ?_ hw hp) hr, onFrameDataStep3_missing hr⟩
  split
  · exact (h.transmit_control hck (kind := .nak) (by decide)).clearNoNak
  · exact h.startAckTimer

/-- The arrival of the oldest frame in the peer's channel, while it still stands there (R224). -/
theorem Drained.receiveFrame (h : Drained supplyMe supplyPeer me peer st) (hck : c.CkSound) {r : Option Bytes}
    {rest : List (Option Bytes)} {f : Frame} (hw : peer.wire = r :: rest) (hf : validateInput c r = .frame f)
    (hr : receiveFrame f st = .next st') : Drained supplyMe supplyPeer me peer st' := by
  have hvalid : validFrames c peer.wire = f :: validFrames c rest := by rw [hw, validFrames_cons_frame hf]
  obtain ⟨st₁, h₁, h₂⟩ := chain_eq_next.1 hr
  cases h₂
  refine Drained.ackProgress ?_ hvalid
  cases hk : f.kind with
  | data =>
    rw [hk] at h₁
    refine h.toInHandler.onFrameData hck (fs := dataFrames c rest) ?_ (packetOk_of_validate hf hk) h₁
    rw [dataFrames, hvalid, List.filter_cons, if_pos (decide_eq_true hk)]
    rfl
  | nak =>
    rw [hk] at h₁
    exact h.nakResend hck h₁
  | ack =>
    rw [hk] at h₁
    cases h₁
    exact h

/-! ### The events -/

/-- What holds between events at both ends. -/
structure BetweenEvents (supplyX supplyY : List Packet) (x y : LinkEnd c) : Prop where
  invX : x.station.Inv
  invY : y.station.Inv
  outsX : x.station.outs = []
  outsY : y.station.outs = []
  flows : BothFlow supplyX supplyY x y

namespace BetweenEvents

theorem symm {supplyX supplyY : List Packet} {x y : LinkEnd c} (h : BetweenEvents supplyX supplyY x y) :
    BetweenEvents supplyY supplyX y x := ⟨h.invY, h.invX, h.outsY, h.outsX, h.flows.symm⟩

theorem losesOldest {supplyX supplyY : List Packet} {x y : LinkEnd c} (h : BetweenEvents supplyX supplyY x y)
    {wire : List (Option Bytes)} (hw : LosesOldest c x.wire wire) : BetweenEvents supplyX supplyY { x with wire } y :=
  ⟨h.invX, h.invY, h.outsX, h.outsY, h.flows.losesOldest hw⟩

/-- A handler begins. -/
theorem drained (h : BetweenEvents supplyMe supplyPeer me peer) :
    Drained supplyMe supplyPeer me peer me.station :=
  ⟨⟨.of_inv h.invX, h.invY.bounded, (settle_self h.outsX).symm ▸ h.flows⟩, h.invX.expectedMissing⟩

/-- A handler ends: the gate, and the outputs are handed over (R220, R230). -/
theorem of_endHandler (h : BetweenEvents supplyMe supplyPeer me peer) {supply : List Packet} {r : Result (Station c)}
    (hd : ∀ st, r = .next st → Drained supplyMe supplyPeer { me with supply } peer st) (hr : endHandler r = .next st) :
    BetweenEvents supplyMe supplyPeer (LinkEnd.settle { me with supply } st) peer := by
  obtain ⟨st₁, h₁, rfl⟩ := endHandler_eq_next.1 hr
  have hd := hd st₁ h₁
  exact ⟨{ hd.core.inv_gate hd.missing with }, h.invY, rfl, h.outsY, hd.toInHandler.gate.flows⟩

theorem offer (h : BetweenEvents supplyMe supplyPeer me peer) (hck : c.CkSound) {p : Packet} {rest : List Packet}
    (hs : me.supply = p :: rest) (hp : packetOk c p = true) (hr : onNewPacketReady (some p) me.station = .next st) :
    BetweenEvents supplyMe supplyPeer (LinkEnd.settle { me with supply := rest } st) peer := by
  rw [onNewPacketReady] at hr
  split at hr
  · exact h.of_endHandler (fun _ h₁ => h.drained.submit hck hs hp h₁) hr
  · cases hr

theorem offerNone (h : BetweenEvents supplyMe supplyPeer me peer) (hr : onNewPacketReady none me.station = .next st) :
    BetweenEvents supplyMe supplyPeer (me.settle st) peer := by
  rw [onNewPacketReady] at hr
  split at hr
  · exact h.of_endHandler (fun _ h₁ => by cases h₁; exact h.drained) hr
  · cases hr

theorem channelReady (h : BetweenEvents supplyMe supplyPeer me peer) (hr : onChannelReady me.station = .next st) :
    BetweenEvents supplyMe supplyPeer (me.settle st) peer :=
  h.of_endHandler (fun _ h₁ => by cases h₁; exact ⟨h.drained.setChReady, h.drained.missing⟩) hr

theorem arrive (h : BetweenEvents supplyMe supplyPeer me peer) (hck : c.CkSound) {r : Option Bytes}
    {rest : List (Option Bytes)} (hw : peer.wire = r :: rest) (hr : onFrameArrived r me.station = .next st) :
    BetweenEvents supplyMe supplyPeer (me.settle st) { peer with wire := rest } := by
  have hhandled : BetweenEvents supplyMe supplyPeer (me.settle st) peer := by
    refine h.of_endHandler (fun st₁ h₁ => ?_) hr
    cases hf : validateInput c r with
    | corruptionError =>
      rw [hf] at h₁
      exact h.drained.corruptNak hck h₁
    | frame f =>
      rw [hf] at h₁
      exact h.drained.receiveFrame hck hw hf h₁
  exact (hhandled.symm.losesOldest (hw ▸ losesOldest_tail r rest)).symm

theorem dataTimeout (h : BetweenEvents supplyMe supplyPeer me peer) (hck : c.CkSound) {q : Seq c}
    (hr : onDataTimeout q me.station = .next st) : BetweenEvents supplyMe supplyPeer (me.settle st) peer :=
  h.of_endHandler (fun _ h₁ => h.drained.timeoutResend hck h₁) hr

theorem ackTimeout (h : BetweenEvents supplyMe supplyPeer me peer) (hck : c.CkSound)
    (hr : onAckTimeout me.station = .next st) : BetweenEvents supplyMe supplyPeer (me.settle st) peer := by
  rw [onAckTimeout, sendFrame_ack] at hr
  split at hr
  · refine h.of_endHandler (fun _ h₁ => ?_) hr
    cases h₁
    exact ⟨h.drained.stopAckTimer.transmit_control hck (kind := .ack) (by decide), h.drained.missing⟩
  · cases hr

/-- Every move of an end whose damage is detected. -/
theorem endMove (h : BetweenEvents supplyMe supplyPeer me peer) (hck : c.CkSound) {m : LinkMove} (hm : m.detected c)
    {e : LinkEnd c × LinkEnd c} (he : endMove m me peer = .next e) : BetweenEvents supplyMe supplyPeer e.1 e.2 := by
  rcases endMove_cases he with ⟨p, rest, st, -, hs, hp, hr, rfl⟩ | ⟨st, -, -, hr, rfl⟩ | ⟨st, -, hr, rfl⟩ |
    ⟨f, rest, st, -, hw, hr, rfl⟩ | ⟨q, st, -, -, hr, rfl⟩ | ⟨st, -, hr, rfl⟩ | ⟨f, rest, -, hw, rfl⟩ |
    ⟨r, f, rest, rfl, hw, rfl⟩
  · exact h.offer hck hs hp hr
  · exact h.offerNone hr
  · exact h.channelReady hr
  · exact h.arrive hck hw hr
  · exact h.dataTimeout hck hr
  · exact h.ackTimeout hck hr
  · exact h.losesOldest (hw ▸ losesOldest_tail f rest)
  · exact h.losesOldest (hw ▸ losesOldest_damage f hm rest)

end BetweenEvents

end Sys2Proof.Machine
end

section
/-! SUPPORT. The invariant of the link (20_memory.md R78; 60_exceptions.md R268): it holds at the start, every move with
detected damage keeps it, and it says what each consumer has received. -/

namespace Sys2Proof.Machine
open Sys2Proof

variable {supplyA supplyB : List Packet}

theorem linkInv_iff {l : Link} : l.Inv supplyA supplyB ↔ BetweenEvents supplyA supplyB l.a l.b :=
  ⟨fun ⟨⟨ha, hb⟩, hoa, hob, hout, hin⟩ => ⟨ha, hb, hoa, hob, hout, hin⟩,
    fun h => ⟨⟨h.invX, h.invY⟩, h.outsX, h.outsY, h.flows.outward, h.flows.inward⟩⟩

/-! ### The moves -/

theorem linkMove_keeps {w : Side} {m : LinkMove} {l l' : Link} (hck : l.cfg.CkSound) (hm : m.detected l.cfg)
    (h : l.Inv supplyA supplyB) (hr : linkMove w m l = .next l') : l'.Inv supplyA supplyB := by
  rw [linkInv_iff] at h ⊢
  rcases linkMove_cases hr with ⟨e, -, he, rfl⟩ | ⟨e, -, he, rfl⟩
  · exact h.endMove hck hm he
  · exact (h.symm.endMove hck hm he).symm

theorem linkMove_cfg {w : Side} {m : LinkMove} {l l' : Link} (hr : linkMove w m l = .next l') : l'.cfg = l.cfg := by
  rcases linkMove_cases hr with ⟨e, -, -, rfl⟩ | ⟨e, -, -, rfl⟩ <;> rfl

theorem linkRun_keeps {c : Config} (hck : c.CkSound) {ms : List (Side × LinkMove)} (hm : ∀ m ∈ ms, m.2.detected c)
    {l l' : Link} (hc : l.cfg = c) (h : l.Inv supplyA supplyB) (hr : linkRun ms l = .next l') :
    l'.cfg = c ∧ l'.Inv supplyA supplyB := by
  induction ms generalizing l with
  | nil =>
    cases hr
    exact ⟨hc, h⟩
  | cons m ms ih =>
    obtain ⟨l₁, h₁, h₂⟩ := chain_eq_next.1 hr
    obtain ⟨hm₁, hms⟩ := List.forall_mem_cons.1 hm
    subst hc
    exact ih hms (linkMove_cfg h₁) (linkMove_keeps hck hm₁ h h₁) h₂

/-! ### The start -/

theorem inv_reset (c : Config) : (Station.reset c).Inv where
  occupancy := by simp [Station.reset, seqDist_eq]
  bounded := Nat.zero_le _
  window := by simp [Station.reset, seqAddw_eq]
  timersArmed i := by simp [Station.reset, outstanding, seqBetween]
  timersSeq q hq := by simp [Station.reset, outstanding, seqBetween] at hq
  expectedMissing := bank_get_replicate false _
  outWritten q hq := by simp [Station.reset, outstanding, seqBetween] at hq
  inWritten i hi := by simp [Station.reset] at hi
  gateLevel := (Bool.and_false _).symm
  outFits := wf_replicate
  inFits := wf_replicate

theorem flow_reset (c : Config) (supply supply' : List Packet) :
    Flow supply [] [] [] (LinkEnd.reset c supply) (LinkEnd.reset c supply') where
  offered := rfl
  buffered := Nat.le_refl _
  upper := by simp [LinkEnd.reset, Station.reset]
  lower := by simp [LinkEnd.reset, Station.reset]
  inOrder := rfl
  expected := by simp [LinkEnd.reset, Station.reset]
  notBehind := Nat.zero_le _
  held k hk := absurd hk (Nat.not_lt_zero k)
  stored j _ hm := by simp [LinkEnd.reset, Station.reset] at hm
  carried := .nil
  fresh := .nil
  freshForReceiver := List.forall_mem_nil _
  acknowledged := .nil
  ackOrder := .nil
  ackRange := List.forall_mem_nil _

theorem linkReset_inv (c : Config) (supplyA supplyB : List Packet) :
    (linkReset c supplyA supplyB).Inv supplyA supplyB :=
  ⟨⟨inv_reset c, inv_reset c⟩, rfl, rfl, ⟨_, _, _, flow_reset c _ _⟩, _, _, _, flow_reset c _ _⟩

/-! ### What the invariant says of the consumers -/

/-- What was taken and not handed over is what the sender still has outstanding, at most. -/
theorem exists_missing_of_flow {c : Config} {supply : List Packet} {x y : LinkEnd c}
    (hb : x.station.nbuffered.toNat ≤ c.nrBufs) (h : ∃ taken sent acked, Flow supply taken sent acked x y) :
    ∃ mid : List Packet, supply = y.got ++ mid ++ x.supply ∧ mid.length ≤ c.nrBufs ∧
      (x.station.nbuffered = 0 → mid = []) := by
  obtain ⟨taken, sent, acked, h⟩ := h
  have hlen : (taken.drop y.got.length).length ≤ x.station.nbuffered.toNat := by
    have := h.notBehind
    rw [List.length_drop]
    omega
  refine ⟨taken.drop y.got.length, ?_, hlen.trans hb, fun h₀ => List.eq_nil_of_length_eq_zero ?_⟩
  · conv_lhs => rw [h.offered, ← List.take_append_drop y.got.length taken, ← h.inOrder]
  · rw [h₀] at hlen
    exact Nat.le_zero.1 hlen

theorem linkInv_delivers {l : Link} (h : l.Inv supplyA supplyB) :
    (∃ mid : List Packet, supplyA = l.b.got ++ mid ++ l.a.supply ∧ mid.length ≤ l.cfg.nrBufs ∧
      (l.a.station.nbuffered = 0 → mid = [])) ∧
    (∃ mid : List Packet, supplyB = l.a.got ++ mid ++ l.b.supply ∧ mid.length ≤ l.cfg.nrBufs ∧
      (l.b.station.nbuffered = 0 → mid = [])) := by
  obtain ⟨⟨ha, hb⟩, -, -, hout, hin⟩ := h
  exact ⟨exists_missing_of_flow ha.bounded hout, exists_missing_of_flow hb.bounded hin⟩

/-- Settles O59: every move keeps the invariant, the start satisfies it, and it bounds what is missing. -/
theorem linkDeliversInOrderExactlyOnce : Obligations.LinkDeliversInOrderExactlyOnce := by
  refine ⟨fun _ _ w m l l' => linkMove_keeps, linkReset_inv, fun _ _ l => linkInv_delivers,
    fun c supplyA supplyB ms l hck hm hr => ?_⟩
  obtain ⟨rfl, h⟩ := linkRun_keeps hck hm rfl (linkReset_inv c supplyA supplyB) hr
  exact linkInv_delivers h

end Sys2Proof.Machine
end

section
/-! SUPPORT. The decoder and the encoder as inverses at each port (30_encoding.md R91, R97 to R100): what the decoder reads
is well formed and encodes to the bytes it was read from, and what the encoder writes decodes to the operation. -/

namespace Sys2Proof
open Sys2Proof.Machine

variable {c : Config}

/-! ### Operand bytes -/

theorem decodeSeq0_eq_instr {i j : Instr} {bs : Bytes} : decodeSeq0 j bs = .instr i ↔ bs = [] ∧ i = j := by
  cases bs with
  | nil => simp [decodeSeq0, eq_comm]
  | cons => simp [decodeSeq0]

theorem decodeSeq1_eq_instr {mk : Byte → Instr} {i : Instr} {bs : Bytes} :
    decodeSeq1 c mk bs = .instr i ↔ ∃ a, bs = [a] ∧ seqOk c a = true ∧ i = mk a := by
  constructor
  · intro h
    unfold decodeSeq1 at h
    split at h
    · next a =>
      split at h <;> cases h
      exact ⟨a, rfl, ‹_›, rfl⟩
    · cases h
  · rintro ⟨a, rfl, ha, rfl⟩
    exact if_pos ha

theorem decodeSeq2_eq_instr {mk : Byte → Byte → Instr} {i : Instr} {bs : Bytes} :
    decodeSeq2 c mk bs = .instr i ↔ ∃ a b, bs = [a, b] ∧ (seqOk c a && seqOk c b) = true ∧ i = mk a b := by
  constructor
  · intro h
    unfold decodeSeq2 at h
    split at h
    · next a b =>
      split at h <;> cases h
      exact ⟨a, b, rfl, ‹_›, rfl⟩
    · cases h
  · rintro ⟨a, b, rfl, hab, rfl⟩
    exact if_pos hab

theorem decodeSeq3_eq_instr {mk : Byte → Byte → Byte → Instr} {i : Instr} {bs : Bytes} :
    decodeSeq3 c mk bs = .instr i ↔
      ∃ a b d, bs = [a, b, d] ∧ (seqOk c a && seqOk c b && seqOk c d) = true ∧ i = mk a b d := by
  constructor
  · intro h
    unfold decodeSeq3 at h
    split at h
    · next a b d =>
      split at h <;> cases h
      exact ⟨a, b, d, rfl, ‹_›, rfl⟩
    · cases h
  · rintro ⟨a, b, d, rfl, habd, rfl⟩
    exact if_pos habd

theorem decodeNewPacket_eq_instr {i : Instr} {bs : Bytes} : decodeNewPacket c bs = .instr i ↔
    (bs = [0] ∧ i = .newPacketReady none) ∨
      ∃ p, bs = 1 :: p ∧ packetOk c p = true ∧ i = .newPacketReady (some p) := by
  constructor
  · intro h
    unfold decodeNewPacket at h
    split at h
    · cases h
    · split at h
      · next hflag =>
        obtain ⟨-, rfl⟩ := BitVec.toNat_eq_nat.1 hflag
        cases h
        exact .inl ⟨rfl, rfl⟩
      · next hflag =>
        obtain ⟨-, rfl⟩ := BitVec.toNat_eq_nat.1 hflag
        split at h <;> cases h
        exact .inr ⟨_, rfl, ‹_›, rfl⟩
      · cases h
  · rintro (⟨rfl, rfl⟩ | ⟨p, rfl, hp, rfl⟩)
    · rfl
    · exact if_pos hp

theorem decodeArrival_eq_instr {i : Instr} {bs : Bytes} : decodeArrival bs = .instr i ↔
    (bs = [0] ∧ i = .frameArrived none) ∨ ∃ input, bs = 1 :: input ∧ i = .frameArrived (some input) := by
  constructor
  · intro h
    unfold decodeArrival at h
    split at h
    · cases h
    · split at h
      · next hflag =>
        obtain ⟨-, rfl⟩ := BitVec.toNat_eq_nat.1 hflag
        cases h
        exact .inl ⟨rfl, rfl⟩
      · next hflag =>
        obtain ⟨-, rfl⟩ := BitVec.toNat_eq_nat.1 hflag
        cases h
        exact .inr ⟨_, rfl, rfl⟩
      · cases h
  · rintro (⟨rfl, rfl⟩ | ⟨input, rfl, rfl⟩) <;> rfl

/-! ### The event port (R99) -/

theorem decodeEvent_encodes {i : Instr} {bs : Bytes} (h : decodeEvent c bs = .instr i) :
    i.wf c = true ∧ encode c i = some ⟨.event, bs⟩ := by
  unfold decodeEvent at h
  split at h
  · cases h
  next code rest =>
  split at h
  case h_1 hcode =>
    obtain ⟨-, rfl⟩ := BitVec.toNat_eq_nat.1 hcode
    obtain ⟨rfl, rfl⟩ | ⟨p, rfl, hp, rfl⟩ := decodeNewPacket_eq_instr.1 h
    · exact ⟨rfl, rfl⟩
    · exact ⟨hp, rfl⟩
  case h_2 hcode | h_5 hcode =>
    obtain ⟨-, rfl⟩ := BitVec.toNat_eq_nat.1 hcode
    obtain ⟨rfl, rfl⟩ := decodeSeq0_eq_instr.1 h
    exact ⟨rfl, rfl⟩
  case h_3 hcode =>
    obtain ⟨-, rfl⟩ := BitVec.toNat_eq_nat.1 hcode
    obtain ⟨rfl, rfl⟩ | ⟨input, rfl, rfl⟩ := decodeArrival_eq_instr.1 h <;> exact ⟨rfl, rfl⟩
  case h_4 hcode =>
    obtain ⟨-, rfl⟩ := BitVec.toNat_eq_nat.1 hcode
    obtain ⟨q, rfl, hq, rfl⟩ := decodeSeq1_eq_instr.1 h
    exact ⟨hq, rfl⟩
  case h_6 => cases h

theorem decodeEvent_of_encode {i : Instr} {bs : Bytes} (hwf : i.wf c = true)
    (h : encode c i = some ⟨.event, bs⟩) : decodeEvent c bs = .instr i := by
  unfold encode at h
  split at h <;> cases h
  -- The rows of `encode` at this port: two have an operand that the decoder checks.
  case h_5 p => exact decodeNewPacket_eq_instr.2 (.inr ⟨p, rfl, hwf, rfl⟩)
  case h_9 q => exact decodeSeq1_eq_instr.2 ⟨q, rfl, hwf, rfl⟩
  all_goals rfl

/-- R99: there is no sixth event. -/
theorem decodeEvent_reserved {code : Byte} (rest : Bytes) (h : 5 ≤ code.toNat) :
    decodeEvent c (code :: rest) = .rejected .reservedEventCode := by
  simp only [decodeEvent]
  split
  case h_6 => rfl
  all_goals omega

/-! ### The select port (R100) -/

theorem decodeSelect_encodes {i : Instr} {bs : Bytes} (h : decodeSelect c bs = .instr i) :
    i.wf c = true ∧ encode c i = some ⟨.select, bs⟩ := by
  unfold decodeSelect at h
  split at h
  · cases h
  next sel rest =>
  split at h
  case h_1 hsel | h_2 hsel | h_3 hsel | h_4 hsel =>
    obtain ⟨-, rfl⟩ := BitVec.toNat_eq_nat.1 hsel
    obtain ⟨a, rfl, ha, rfl⟩ := decodeSeq1_eq_instr.1 h
    exact ⟨ha, rfl⟩
  case h_5 hsel =>
    obtain ⟨-, rfl⟩ := BitVec.toNat_eq_nat.1 hsel
    obtain ⟨a, b, rfl, hab, rfl⟩ := decodeSeq2_eq_instr.1 h
    exact ⟨hab, rfl⟩
  case h_6 hsel =>
    obtain ⟨-, rfl⟩ := BitVec.toNat_eq_nat.1 hsel
    obtain ⟨a, b, d, rfl, habd, rfl⟩ := decodeSeq3_eq_instr.1 h
    exact ⟨habd, rfl⟩
  case h_7 => cases h

theorem decodeSelect_of_encode {i : Instr} {bs : Bytes} (hwf : i.wf c = true)
    (h : encode c i = some ⟨.select, bs⟩) : decodeSelect c bs = .instr i := by
  unfold encode at h
  split at h <;> cases h
  -- The rows of `encode` at this port, by the number of operands.
  case h_11 a | h_12 a | h_13 a | h_14 a => exact decodeSeq1_eq_instr.2 ⟨a, rfl, hwf, rfl⟩
  case h_15 a b => exact decodeSeq2_eq_instr.2 ⟨a, b, rfl, hwf, rfl⟩
  case h_16 a b d => exact decodeSeq3_eq_instr.2 ⟨a, b, d, rfl, hwf, rfl⟩

/-- R100: `110`, `111` and every byte wider than the select choose no function. -/
theorem decodeSelect_reserved {sel : Byte} (rest : Bytes) (h : 6 ≤ sel.toNat) :
    decodeSelect c (sel :: rest) = .rejected .reservedSelect := by
  simp only [decodeSelect]
  split
  case h_7 => rfl
  all_goals omega

/-! ### The channel port (R91, R97) -/

theorem decodeChannel_eq_instr {i : Instr} {bs : Bytes} :
    decodeChannel c bs = .instr i ↔ ∃ f, validateInput c (some bs) = .frame f ∧ i = frameInstr f := by
  unfold decodeChannel
  cases validateInput c (some bs) with
  | frame f => simp [eq_comm]
  | corruptionError => simp

/-- R147: only a DATA frame carries a payload. -/
theorem payload_eq_nil_of_frameOk {f : Frame} (h : frameOk c f = true) (hk : f.kind ≠ .data) : f.payload = [] := by
  obtain ⟨kind, a, q, p⟩ := f
  cases kind with
  | data => exact absurd rfl hk
  | ack | nak => exact List.isEmpty_iff.1 (Bool.and_eq_true_iff.1 h).2

/-- The operation of a well-formed frame is the frame itself: a control frame is rebuilt with the payload it has, none. -/
theorem frameInstr_encodes {f : Frame} (h : frameOk c f = true) :
    (frameInstr f).wf c = true ∧ encode c (frameInstr f) = some ⟨.channel, serializeFrame c f⟩ := by
  obtain ⟨kind, a, q, p⟩ := f
  cases kind with
  | data => exact ⟨h, rfl⟩
  | ack | nak =>
    obtain rfl : p = [] := payload_eq_nil_of_frameOk h nofun
    exact ⟨h, rfl⟩

/-- What the encoder puts on the channel is a frame serialized, well formed where the operation is. -/
theorem encode_eq_channel {i : Instr} {bs : Bytes} (hwf : i.wf c = true) (h : encode c i = some ⟨.channel, bs⟩) :
    ∃ f, frameOk c f = true ∧ i = frameInstr f ∧ bs = serializeFrame c f := by
  unfold encode at h
  split at h <;> cases h <;> exact ⟨_, hwf, rfl, rfl⟩

theorem decodeChannel_of_encode {i : Instr} {bs : Bytes} (hck : c.CkSound) (hwf : i.wf c = true)
    (h : encode c i = some ⟨.channel, bs⟩) : decodeChannel c bs = .instr i := by
  obtain ⟨f, hf, rfl, rfl⟩ := encode_eq_channel hwf h
  exact decodeChannel_eq_instr.2 ⟨f, validateInput_serializeFrame hck hf, rfl⟩

/-- The layout of each kind, byte by byte, beside the operation it is (R91, R93). -/
theorem layout_of_frameOk {f : Frame} (h : frameOk c f = true) (tail : Bytes) :
    (frameBody f ++ tail = 0x01 :: f.ack :: f.seq :: (f.payload ++ tail) ∧
        frameInstr f = .data f.ack f.seq f.payload) ∨
      (frameBody f ++ tail = 0x02 :: f.ack :: f.seq :: tail ∧ frameInstr f = .ack f.ack f.seq) ∨
      (frameBody f ++ tail = 0x03 :: f.ack :: f.seq :: tail ∧ frameInstr f = .nak f.ack f.seq) := by
  obtain ⟨kind, a, q, p⟩ := f
  cases kind with
  | data => exact .inl ⟨rfl, rfl⟩
  | ack =>
    obtain rfl : p = [] := payload_eq_nil_of_frameOk h nofun
    exact .inr (.inl ⟨rfl, rfl⟩)
  | nak =>
    obtain rfl : p = [] := payload_eq_nil_of_frameOk h nofun
    exact .inr (.inr ⟨rfl, rfl⟩)

/-- R91, R98: what the channel port decodes is a well-formed frame, its checksum of residue zero attached last. -/
theorem decodeChannel_frame {i : Instr} {bs : Bytes} (h : decodeChannel c bs = .instr i) :
    ∃ (f : Frame) (tail : Bytes), i = frameInstr f ∧ frameOk c f = true ∧ c.residue bs = 0 ∧
      tail.length = c.ckLen ∧ bs = frameBody f ++ tail := by
  obtain ⟨f, hf, rfl⟩ := decodeChannel_eq_instr.1 h
  obtain ⟨_, tail, hinput, hres, htail, hbs, hok⟩ := validate_eq_frame hf
  obtain rfl := Option.some.inj hinput
  exact ⟨f, tail, rfl, hok, hres, htail, hbs⟩

/-! ### The statements -/

/-- Settles O15, port by port. -/
theorem decodeOfEncodeIsTheOperation : Obligations.DecodeOfEncodeIsTheOperation := by
  rintro c i ⟨port, bs⟩ hck hwf henc
  cases port with
  | channel => exact decodeChannel_of_encode hck hwf henc
  | event => exact decodeEvent_of_encode hwf henc
  | select => exact decodeSelect_of_encode hwf henc

/-- Settles O14: the channel by the layout of a frame that validates, the other ports code by code. -/
theorem portsDecodeOnlyEncodings : Obligations.PortsDecodeOnlyEncodings := by
  intro c
  refine ⟨fun bs i h => ?_, fun ⟨port, bs⟩ i hport h => ?_, fun _ => decodeEvent_reserved, fun _ => decodeSelect_reserved⟩
  · obtain ⟨f, tail, rfl, hok, hres, htail, rfl⟩ := decodeChannel_frame h
    obtain ⟨hwf, henc⟩ := frameInstr_encodes hok
    exact ⟨hres, hwf, ⟨frameBody f, tail, rfl, htail, henc⟩,
      f.ack, f.seq, f.payload, tail, htail, layout_of_frameOk hok tail⟩
  · cases port with
    | channel => exact absurd rfl hport
    | event => exact decodeEvent_encodes h
    | select => exact decodeSelect_encodes h

/-- Settles O16, by running the decoder on the five words. -/
theorem specWordsDecode : Obligations.SpecWordsDecode :=
  ⟨by decide, by decide, by decide, by decide, by decide⟩

end Sys2Proof
end

section
/-! SUPPORT. The Sequence Space unit (40_seqspace.md R119 to R128): its results in natural numbers modulo `M`, its answers,
and the laws of the ring. `BETWEEN` is read through clockwise distances (R126): rotation, splitting and counting of intervals
are facts about distances. -/

namespace Sys2Proof.Machine
open Sys2Proof

variable {c : Config}

/-! ### The results modulo `M` -/

theorem toNat_seqInc (k : Seq c) : (seqInc k).toNat = (k.toNat + 1) % c.M := toNat_ofNat_seq _

theorem toNat_seqPred (k : Seq c) : (seqPred k).toNat = (k.toNat + c.maxSeq) % c.M := toNat_ofNat_seq _

theorem toNat_seqAddw (k : Seq c) : (seqAddw k).toNat = (k.toNat + c.nrBufs) % c.M := toNat_ofNat_seq _

theorem toNat_seqDist (a b : Seq c) : (seqDist a b).toNat = (b.toNat + c.M - a.toNat) % c.M := by
  rw [Nat.add_sub_assoc (seq_lt a).le]
  exact toNat_ofNat_seq _

/-! ### Answers (R100, R119) -/

theorem zext8_eq_ofNat (k : Seq c) : zext8 k = BitVec.ofNat 8 k.toNat := (BitVec.ofNat_toNat 8 k).symm

theorem seqOk_of_le {a : Byte} (h : a.toNat ≤ c.maxSeq) : seqOk c a = true := decide_eq_true h

theorem toNat_seqOf_of_ok {a : Byte} (h : seqOk c a = true) : (seqOf c a).toNat = a.toNat := by
  rw [toNat_seqOf, Nat.mod_eq_of_lt ((seqOk_iff a).1 h)]

/-- Settles O1: the operands are read as the numbers they are, and each function is its formula. -/
theorem sequenceUnitAnswersItsFormulas : Obligations.SequenceUnitAnswersItsFormulas := by
  intro s a b ha hb
  replace ha := seqOk_of_le ha
  replace hb := seqOk_of_le hb
  refine ⟨?_, ?_, ?_, ?_, ?_⟩
  · change execInc a s = _
    rw [execInc, withSeq_of_ok ha, zext8_eq_ofNat, toNat_seqInc, toNat_seqOf_of_ok ha, answer]
  · change execPred a s = _
    rw [execPred, withSeq_of_ok ha, zext8_eq_ofNat, toNat_seqPred, toNat_seqOf_of_ok ha, answer]
  · change execAddw a s = _
    rw [execAddw, withSeq_of_ok ha, zext8_eq_ofNat, toNat_seqAddw, toNat_seqOf_of_ok ha, answer]
  · change execSlot a s = _
    rw [execSlot, withSeq_of_ok ha, slot8, val_seqSlot, toNat_seqOf_of_ok ha, answer]
  · change execDist a b s = _
    rw [execDist, withSeq_of_ok ha, withSeq_of_ok hb, zext8_eq_ofNat, toNat_seqDist, toNat_seqOf_of_ok ha,
      toNat_seqOf_of_ok hb, answer]

/-- Settles O2: both forms say what `seqBetween` of the operands says. -/
theorem betweenAnswersTheThreeOrderings : Obligations.BetweenAnswersTheThreeOrderings := by
  intro s a b d ha hb hd
  replace ha := seqOk_of_le ha
  replace hb := seqOk_of_le hb
  replace hd := seqOk_of_le hd
  have horder := seqBetween_iff (seqOf s.cfg a) (seqOf s.cfg b) (seqOf s.cfg d)
  have hdist := seqBetween_iff_dist (seqOf s.cfg a) (seqOf s.cfg b) (seqOf s.cfg d)
  rw [← seqDist_eq, ← seqDist_eq, toNat_seqDist, toNat_seqDist] at hdist
  rw [toNat_seqOf_of_ok ha, toNat_seqOf_of_ok hb, toNat_seqOf_of_ok hd] at horder hdist
  refine ⟨?_, horder.symm.trans hdist⟩
  change execBetween a b d s = _
  rw [execBetween, withSeq_of_ok ha, withSeq_of_ok hb, withSeq_of_ok hd, answer]
  congr 3
  rw [Bool.eq_iff_iff, horder, decide_eq_true_iff]

/-! ### The laws of the unary functions (R128) -/

theorem seqInc_iterate (j : Nat) (k : Seq c) : seqInc^[j] k = k + BitVec.ofNat c.n j := by
  induction j with
  | zero => simp
  | succ j ih =>
    rw [Function.iterate_succ_apply', ih, seqInc_eq, BitVec.ofNat_add, BitVec.add_assoc]
    rfl

theorem add_ofNat_M (k : Seq c) : k + BitVec.ofNat c.n c.M = k := by
  have hzero : BitVec.ofNat c.n c.M = 0#c.n := by
    apply BitVec.eq_of_toNat_eq
    rw [toNat_ofNat_seq, Nat.mod_self, BitVec.toNat_zero]
  rw [hzero, BitVec.add_zero]

theorem seqAddw_seqAddw (k : Seq c) : seqAddw (seqAddw k) = k := by
  rw [seqAddw_eq, seqAddw_eq, BitVec.add_assoc, ← BitVec.ofNat_add, ← Nat.two_mul, ← M_eq_two_nrBufs, add_ofNat_M]

theorem seqSlot_eq_slotOfNth (k : Seq c) : seqSlot k = slotOfNth c k.toNat := by
  rw [slotOfNth, BitVec.ofNat_toNat, BitVec.setWidth_eq]

theorem seqSlot_seqAddw (k : Seq c) : seqSlot (seqAddw k) = seqSlot k := by
  rw [seqSlot_eq_slotOfNth k, ← slotOfNth_add_nrBufs]
  rfl

theorem val_seqSlot_seqInc (k : Seq c) : (seqSlot (seqInc k)).val = ((seqSlot k).val + 1) % c.nrBufs := by
  rw [val_seqSlot k, Nat.mod_add_mod, ← val_slotOfNth]
  rfl

theorem seqDist_seqInc_right (a b : Seq c) : seqDist a (seqInc b) = seqInc (seqDist a b) := by
  rw [seqDist_eq, seqDist_eq, seqInc_eq, seqInc_eq, add_sub_right_comm]

theorem seqDist_seqInc_left (a b : Seq c) : seqDist (seqInc a) b = seqPred (seqDist a b) := by
  rw [seqDist_eq, seqDist_eq, seqInc_eq, seqPred_eq, BitVec.sub_sub]

/-- Settles O5: INC adds 1 to the count, ADDW adds `NR_BUFS`, and `M` more is the same number. -/
theorem unaryFunctionLaws : Obligations.UnaryFunctionLaws := by
  intro c k a b
  refine ⟨?_, ?_, ?_, seqAddw_seqAddw k, ?_, seqSlot_seqAddw k, val_seqSlot_seqInc k, ?_, ?_⟩
  · rw [seqInc_iterate, add_ofNat_M]
  · rw [seqPred_eq, seqInc_eq, BitVec.add_sub_cancel]
  · rw [seqPred_eq, seqInc_eq, BitVec.sub_add_cancel]
  · rw [seqInc_iterate, seqAddw_eq]
  · rw [seqDist_seqInc_right, toNat_seqInc]
  · rw [seqDist_seqInc_left, toNat_seqPred, ← maxSeq_succ]
    rfl

/-! ### The laws of BETWEEN (R127) -/

/-- Law 1. -/
theorem seqBetween_add_right (a b d k : Seq c) : seqBetween (a + k) (b + k) (d + k) = seqBetween a b d := by
  rw [Bool.eq_iff_iff, seqBetween_iff_dist, seqBetween_iff_dist, add_sub_add_right_eq_sub, add_sub_add_right_eq_sub]

theorem toNat_sub_one_cases (x : Seq c) :
    (x.toNat = 0 ∧ (x - 1).toNat = c.M - 1) ∨ (1 ≤ x.toNat ∧ (x - 1).toNat = x.toNat - 1) := by
  have := toNat_sub_cases 1 x
  rw [toNat_one_seq] at this
  omega

/-- Law 4: every distance from the lower edge falls by one, but that of the edge itself, which becomes the largest. -/
theorem seqBetween_advance {a b d : Seq c} (h : seqBetween a b d = true) : seqBetween (a + 1) b d = true ↔ b ≠ a := by
  have hzero : (b - a).toNat = 0 ↔ b = a := by
    rw [← sub_eq_zero (a := b), ← BitVec.toNat_inj]
    rfl
  have hd := seq_lt (d - a)
  rw [seqBetween_iff_dist] at h ⊢
  rw [ne_eq, ← hzero, ← BitVec.sub_sub, ← BitVec.sub_sub]
  rcases toNat_sub_one_cases (b - a) with hb' | hb' <;> rcases toNat_sub_one_cases (d - a) with hd' | hd' <;> omega

/-- Law 5, for different edges: the two intervals between them split the ring. -/
theorem seqBetween_swap {a d : Seq c} (h : a ≠ d) (b : Seq c) : seqBetween d b a = !seqBetween a b d := by
  have hne : a.toNat ≠ d.toNat := mt BitVec.eq_of_toNat_eq h
  rw [Bool.eq_iff_iff, Bool.not_eq_true', Bool.eq_false_iff, ne_eq, seqBetween_iff, seqBetween_iff]
  omega

/-- Law 5, for equal edges: the interval is empty. -/
theorem seqBetween_self (a b : Seq c) : seqBetween a b a = false := by
  rw [Bool.eq_false_iff, ne_eq, seqBetween_iff]
  omega

/-- Law 6. -/
theorem toNat_seqDist_add {a b d : Seq c} (h : seqBetween a b d = true) :
    (seqDist a b).toNat + (seqDist b d).toNat = (seqDist a d).toNat := by
  rw [seqBetween_iff_dist] at h
  rw [seqDist_eq, seqDist_eq, seqDist_eq, ← sub_sub_sub_cancel_right d b a, BitVec.toNat_sub_of_le h.le,
    Nat.add_sub_of_le h.le]

/-- The top bit of a number is clear in the lower half of the ring, whose size is `NR_BUFS`. -/
theorem topBit_eq_false_iff (x : Seq c) : x.getLsbD (c.n - 1) = false ↔ x.toNat < c.nrBufs := by
  have hM := M_eq_two_nrBufs c
  rw [← BitVec.msb_eq_getLsbD_last, BitVec.msb_eq_false_iff_two_mul_lt]
  change 2 * x.toNat < c.M ↔ _
  omega

/-- Settles O3, law by law. -/
theorem betweenRotatesAdvancesAndSplits : Obligations.BetweenRotatesAdvancesAndSplits := by
  intro c a b d k
  exact ⟨seqBetween_add_right a b d k, seqBetween_advance, fun h => seqBetween_swap h b, seqBetween_self a b,
    toNat_seqDist_add, seqBetween_seqAddw_iff a b,
    (seqBetween_seqAddw_iff a b).trans (topBit_eq_false_iff (b - a)).symm⟩

/-! ### Counting (R127) -/

/-- Seen from any number, once round the ring every distance below `M` occurs exactly once. -/
theorem dist_range_perm (a : Seq c) :
    ((List.range c.M).map fun b => (BitVec.ofNat c.n b - a).toNat).Perm (List.range c.M) := by
  have hinj : ∀ b ∈ List.range c.M, ∀ b' ∈ List.range c.M,
      (BitVec.ofNat c.n b - a).toNat = (BitVec.ofNat c.n b' - a).toNat → b = b' := by
    intro b hb b' hb' h
    rw [List.mem_range] at hb hb'
    exact ofNat_seq_inj_of_near (sub_left_injective (BitVec.eq_of_toNat_eq h)) (by omega) (by omega)
  have hsub : ((List.range c.M).map fun b => (BitVec.ofNat c.n b - a).toNat) ⊆ List.range c.M := by
    intro x hx
    obtain ⟨b, -, rfl⟩ := List.mem_map.1 hx
    exact List.mem_range.2 (seq_lt _)
  exact ((List.nodup_range.map_on hinj).subperm hsub).perm_of_length_le (by simp)

theorem countP_lt_range {m k : Nat} (h : m ≤ k) : (List.range k).countP (fun x => decide (x < m)) = m := by
  rw [List.countP_eq_length_filter, ← List.Ico.zero_bot, List.Ico.filter_lt, List.Ico.length, Nat.sub_zero, min_eq_right h]

/-- Law 2: the numbers of an interval are those at the distances below its length. -/
theorem countP_seqBetween (a d : Seq c) :
    ((List.range c.M).countP fun b => seqBetween a (BitVec.ofNat c.n b) d) = (d - a).toNat := by
  have hdist : (fun b => seqBetween a (BitVec.ofNat c.n b) d) =
      (fun x => decide (x < (d - a).toNat)) ∘ fun b => (BitVec.ofNat c.n b - a).toNat := by
    funext b
    rw [Bool.eq_iff_iff, seqBetween_iff_dist, Function.comp_apply, decide_eq_true_iff]
  rw [hdist, ← List.countP_map, (dist_range_perm a).countP_eq, countP_lt_range (seq_lt _).le]

theorem two_mul_sum_range (k : Nat) : 2 * (List.range k).sum = k * (k - 1) := by
  rw [Nat.mul_comm, ← Finset.sum_range_id_mul_two, ← List.toFinset_range, List.sum_toFinset _ List.nodup_range,
    List.map_id']

/-- Law 3, for one lower edge. -/
theorem two_mul_sum_seqBetween (a : Seq c) :
    2 * ((List.range c.M).map fun d => (List.range c.M).countP fun b =>
      seqBetween a (BitVec.ofNat c.n b) (BitVec.ofNat c.n d)).sum = c.M * (c.M - 1) := by
  simp only [countP_seqBetween]
  rw [(dist_range_perm a).sum_eq, two_mul_sum_range]

/-- Settles O4: from each of the `M` lower edges the intervals have the lengths 0 to `M - 1`. -/
theorem betweenCounts : Obligations.BetweenCounts := by
  intro c
  refine ⟨countP_seqBetween, ?_⟩
  rw [← List.sum_map_mul_left]
  simp only [two_mul_sum_seqBetween]
  simp [Nat.mul_assoc]

end Sys2Proof.Machine
end

section
/-! SUPPORT. Operands outside their bounds (93_implementation_defined.md U3, U8; R129, R144, R147): each operand test refuses
by its own name, and an operation that is not well formed fails one of them. -/

namespace Sys2Proof.Machine
open Sys2Proof

/-! ### What breaks a bound -/

section
variable {c : Config}

theorem seqOk_eq_false_iff {a : Byte} : seqOk c a = false ↔ c.maxSeq < a.toNat := by simp [seqOk]

theorem packetOk_eq_false_iff {p : Packet} : packetOk c p = false ↔ c.pktMax < p.length := by simp [packetOk]

theorem frameOk_eq_false_iff {f : Frame} : frameOk c f = false ↔
    c.maxSeq < f.ack.toNat ∨ c.maxSeq < f.seq.toNat ∨ (f.kind = .data ∧ c.pktMax < f.payload.length) ∨
      (f.kind ≠ .data ∧ f.payload ≠ []) := by
  obtain ⟨kind, a, q, p⟩ := f
  rw [frameOk, Bool.and_eq_false_iff, Bool.and_eq_false_iff, seqOk_eq_false_iff, seqOk_eq_false_iff, or_assoc]
  cases kind <;> simp [packetOk_eq_false_iff]

/-- An empty payload is one that a frame of every kind may have. -/
theorem frameOk_empty (kind : Kind) (a q : Byte) : frameOk c ⟨kind, a, q, []⟩ = (seqOk c a && seqOk c q) := by
  cases kind <;> simp [frameOk, packetOk]

end

/-! ### One bound, one refusal -/

section
variable {s : State}

theorem withSeq_refused {a : Byte} {k : Seq s.cfg → Result State} (h : s.cfg.maxSeq < a.toNat) :
    withSeq s a k = .refused .seqOutOfRange := by
  rw [withSeq, seqOk_eq_false_iff.2 h, if_neg Bool.false_ne_true]

/-- The operands behind an earlier one are tested only if that one is in range, but the refusal is the same. -/
theorem withSeq_refused_after {a : Byte} {k : Seq s.cfg → Result State} (h : ∀ q, k q = .refused .seqOutOfRange) :
    withSeq s a k = .refused .seqOutOfRange := by
  unfold withSeq
  split
  · exact h _
  · rfl

theorem withPacket_refused {p : Packet} {k : Result State} (h : s.cfg.pktMax < p.length) :
    withPacket s p k = .refused .packetTooLong := by
  rw [withPacket, packetOk_eq_false_iff.2 h, if_neg Bool.false_ne_true]

theorem withFrame_refused {f : Frame} {k : Result State} (h : frameOk s.cfg f = false) :
    withFrame s f k = .refused .illFormedFrame := by
  rw [withFrame, h, if_neg Bool.false_ne_true]

end

theorem onFrameData_refused_of_kind {f : Frame} (s : State) (h : f.kind ≠ .data) :
    exec (.onFrameData f) s = .refused .illFormedFrame := by
  change execOnFrameData f s = _
  obtain ⟨kind, a, q, p⟩ := f
  unfold execOnFrameData withFrame
  cases kind with
  | data => exact absurd rfl h
  | ack | nak => exact ite_self _

theorem parse_refused {bs : Bytes} (s : State) (h : bs.length < s.cfg.minLen) :
    exec (.parse bs) s = .refused .stringTooShort :=
  if_neg (Nat.not_le.2 h)

/-! ### Every ill-formed operation -/

/-- The refusals for an operand outside its bound (notes/assumptions/9.md, 11.md). -/
def RefusedByBound (r : Result State) : Prop :=
  ∃ e ∈ [Refusal.seqOutOfRange, .packetTooLong, .illFormedFrame, .stringTooShort], r = .refused e

namespace RefusedByBound
variable {s : State}

/-! An operand test is one of these refusals, if what follows it is one for an operand that passes. -/

theorem of_withSeq {a : Byte} {k : Seq s.cfg → Result State}
    (h : seqOk s.cfg a = true → RefusedByBound (k (seqOf s.cfg a))) : RefusedByBound (withSeq s a k) := by
  unfold withSeq
  split
  next ha => exact h ha
  next => exact ⟨_, by decide, rfl⟩

theorem of_withPacket {p : Packet} {k : Result State} (h : packetOk s.cfg p = true → RefusedByBound k) :
    RefusedByBound (withPacket s p k) := by
  unfold withPacket
  split
  next hp => exact h hp
  next => exact ⟨_, by decide, rfl⟩

theorem of_withFrame {f : Frame} {k : Result State} (h : frameOk s.cfg f = true → RefusedByBound k) :
    RefusedByBound (withFrame s f k) := by
  unfold withFrame
  split
  next hf => exact h hf
  next => exact ⟨_, by decide, rfl⟩

end RefusedByBound

/-- An operation that is not well formed fails the first test of an operand that is outside its bound. -/
theorem refusedByBound_of_not_wf {s : State} {i : Instr} (h : i.wf s.cfg = false) : RefusedByBound (exec i s) := by
  match i, h with
  | .parse bs, h => exact ⟨.stringTooShort, by decide, parse_refused s (by simpa [Instr.wf] using h)⟩
  | .inc _, h | .pred _, h | .addw _, h | .slot _, h | .build _ _, h | .sendFrame _ _, h | .dataTimeout _, h
  | .ackProgress _, h | .timeoutResend _, h | .nakResend _, h | .onFrameDataStep1 _, h | .startDataTimer _, h
  | .stopDataTimer _, h =>
    rw [exec]
    exact .of_withSeq fun ha => absurd ha (ne_true_of_eq_false h)
  | .dist a b, h =>
    rw [exec]
    refine .of_withSeq fun ha => .of_withSeq fun hb => ?_
    simp [Instr.wf, ha, hb] at h
  | .between a b d, h =>
    rw [exec]
    refine .of_withSeq fun ha => .of_withSeq fun hb => .of_withSeq fun hd => ?_
    simp [Instr.wf, ha, hb, hd] at h
  | .onFrameDataStep2 q p, h =>
    rw [exec]
    refine .of_withSeq fun hq => .of_withPacket fun hp => ?_
    simp [Instr.wf, hq, hp] at h
  | .newPacketReady (some _), h | .submit _, h =>
    rw [exec]
    exact .of_withPacket fun hp => absurd hp (ne_true_of_eq_false h)
  | .data _ _ _, h | .ack _ _, h | .nak _ _, h | .serialize _, h =>
    rw [exec]
    exact .of_withFrame fun hf => absurd hf (ne_true_of_eq_false h)
  | .onFrameData _, h =>
    refine ⟨.illFormedFrame, by decide, ?_⟩
    rcases Bool.and_eq_false_iff.1 h with hf | hk
    · exact withFrame_refused hf
    · exact onFrameData_refused_of_kind s (of_decide_eq_false hk)

/-! ### The statement -/

/-- Settles O50: each operation tests its operands first, in order, and the refusal is that of the test that fails. -/
theorem illFormedOperandsHaveNoStep : Obligations.IllFormedOperandsHaveNoStep := by
  intro s
  refine ⟨?_, ?_, ?_, fun f => onFrameData_refused_of_kind s, fun bs => parse_refused s, fun i =>
    refusedByBound_of_not_wf⟩
  · intro q a b k p h
    have hq : ∀ {f : Seq s.cfg → Result State}, withSeq s q f = .refused .seqOutOfRange := withSeq_refused h
    simp only [List.forall_mem_cons, exec]
    exact ⟨hq, hq, hq, hq, hq, hq, withSeq_refused_after fun _ => hq, hq, withSeq_refused_after fun _ => hq,
      withSeq_refused_after fun _ => withSeq_refused_after fun _ => hq, hq, hq, hq, hq, hq, hq, hq, hq, hq, nofun⟩
  · intro q p hq hp
    simp only [List.forall_mem_cons, exec]
    refine ⟨withPacket_refused hp, withPacket_refused hp, ?_, nofun⟩
    exact (withSeq_of_ok (seqOk_of_le hq)).trans (withPacket_refused hp)
  · intro f h
    rw [← frameOk_eq_false_iff] at h
    refine ⟨withFrame_refused h, withFrame_refused h, fun hk => withFrame_refused (hk ▸ h), fun hp => ?_⟩
    have hseq : (seqOk s.cfg f.ack && seqOk s.cfg f.seq) = false := by rw [← frameOk_empty f.kind, ← hp]; exact h
    exact ⟨withFrame_refused ((frameOk_empty .ack _ _).trans hseq),
      withFrame_refused ((frameOk_empty .nak _ _).trans hseq)⟩

end Sys2Proof.Machine
end

section
/-! SUPPORT. The Frame Codec's operations (41_codec.md R140 to R148): the test `Malformed` as a proposition, each branch of
`VALIDATE` and `PARSE`, the frame that `BUILD` answers, and what the station transmits (R205) and does with an error (R146). -/

namespace Sys2Proof.Machine
open Sys2Proof

/-! ### The test Malformed (R145) -/

section
variable {c : Config}

/-- R98: every byte but the three kind codes is reserved. -/
theorem kindOf_eq_none_iff {k : Byte} : kindOf k = none ↔ k ≠ 0x01 ∧ k ≠ 0x02 ∧ k ≠ 0x03 := by
  constructor
  · intro h
    refine ⟨?_, ?_, ?_⟩ <;> rintro rfl <;> cases h
  · rintro ⟨hdata, hack, hnak⟩
    cases h : kindOf k with
    | none => rfl
    | some kind =>
      have hk := kindOf_eq_some h
      cases kind with
      | data => exact absurd hk hdata
      | ack => exact absurd hk hack
      | nak => exact absurd hk hnak

theorem malformed_iff {k a q : Byte} {len : Nat} : malformed c k a q len = true ↔
    (k ≠ 0x01 ∧ k ≠ 0x02 ∧ k ≠ 0x03) ∨ a.toNat > c.maxSeq ∨ q.toNat > c.maxSeq ∨
      ((k = 0x02 ∨ k = 0x03) ∧ len ≠ c.minLen) ∨ (k = 0x01 ∧ len > c.maxLen) := by
  simp only [malformed, Bool.or_eq_true, Bool.and_eq_true, decide_eq_true_eq, beq_iff_eq, Option.isNone_iff_eq_none,
    kindOf_eq_none_iff, or_assoc]

/-- A header that is not malformed carries the code of a kind. -/
theorem exists_kind_of_not_malformed {k a q : Byte} {len : Nat} (h : malformed c k a q len = false) :
    ∃ kind, k = kindCode kind := by
  cases hk : kindOf k with
  | some kind => exact ⟨kind, kindOf_eq_some hk⟩
  | none => exact absurd (malformed_iff.2 (.inl (kindOf_eq_none_iff.1 hk))) (ne_true_of_eq_false h)

/-! ### The branches of VALIDATE and PARSE (R143, R144) -/

theorem validateInput_of_damaged {bs : Bytes} (h : bs.length < c.minLen ∨ c.residue bs ≠ 0) :
    validateInput c (some bs) = .corruptionError := by
  rw [validateInput]
  rcases h with hlen | hres
  · exact if_pos hlen
  · rw [if_pos hres, ite_self]

theorem validateInput_of_intact {bs : Bytes} (hlen : c.minLen ≤ bs.length) (hres : c.residue bs = 0) :
    validateInput c (some bs) = parseFrame c bs := by
  rw [validateInput, if_neg (Nat.not_lt.2 hlen), if_neg (not_not.2 hres)]

theorem parseFrame_of_malformed {k a q : Byte} {p tail : Bytes} (htail : tail.length = c.ckLen)
    (h : malformed c k a q (c.minLen + p.length) = true) :
    parseFrame c (k :: a :: q :: (p ++ tail)) = .corruptionError := by
  rw [parseFrame_layout k a q p tail htail, if_pos h]

theorem parseFrame_of_not_malformed {kind : Kind} {a q : Byte} {p tail : Bytes} (htail : tail.length = c.ckLen)
    (h : malformed c (kindCode kind) a q (c.minLen + p.length) = false) :
    parseFrame c (kindCode kind :: a :: q :: (p ++ tail)) = .frame ⟨kind, a, q, p⟩ := by
  rw [parseFrame_layout _ a q p tail htail, if_neg (ne_true_of_eq_false h), kindOf_kindCode]

theorem minLen_le_length_layout (k a q : Byte) (p : Bytes) {tail : Bytes} (htail : tail.length = c.ckLen) :
    c.minLen ≤ (k :: a :: q :: (p ++ tail)).length := by
  simp only [List.length_cons, List.length_append, Config.minLen, Config.hdrLen]
  omega

/-- The frames of R147, by their bounds. -/
theorem frameOk_of_bounds {f : Frame} (ha : f.ack.toNat ≤ c.maxSeq) (hq : f.seq.toNat ≤ c.maxSeq)
    (hp : f.payload.length ≤ c.pktMax) (hk : f.kind ≠ .data → f.payload = []) : frameOk c f = true := by
  rw [← Bool.not_eq_false, frameOk_eq_false_iff]
  rintro (h | h | ⟨-, h⟩ | ⟨hkind, hne⟩)
  · omega
  · omega
  · omega
  · exact hne (hk hkind)

/-! ### The frame that BUILD answers (R140, R142) -/

variable (st : Station c)

theorem seqInc_piggyback : seqInc (piggyback st) = st.frameExpected := by
  rw [piggyback, seqPred_eq, seqInc_eq, BitVec.sub_add_cancel]

theorem build_ack (q : Seq c) : build .ack q st = some ⟨.ack, ackByte st, 0, []⟩ := by
  rw [build, zext8_piggyback]

theorem build_nak (q : Seq c) : build .nak q st = some ⟨.nak, ackByte st, 0, []⟩ := by
  rw [build, zext8_piggyback]

theorem build_data {q : Seq c} {p : Packet} (h : st.outBuf.read (seqSlot q) = some p) :
    build .data q st = some ⟨.data, ackByte st, zext8 q, p⟩ := by
  rw [build, h, Option.map_some, zext8_piggyback]

/-! ### An error uses nothing of the input (R146) -/

theorem onFrameArrived_of_corrupt {input : Option Bytes} (h : validateInput c input = .corruptionError) :
    onFrameArrived input st = endHandler (corruptNak st) := by
  rw [onFrameArrived, h]

end

/-! ### What each operation takes for its next state -/

section
variable (s : State)

theorem exec_build {kind : Kind} {q : Byte} {f : Frame} (hq : seqOk s.cfg q = true)
    (hf : build kind (seqOf s.cfg q) s.station = some f) :
    exec (.build kind q) s = .next { s with ret := .frame f } := by
  change execBuild kind q s = _
  rw [execBuild, withSeq_of_ok hq, hf]
  rfl

theorem exec_serialize {f : Frame} (hf : frameOk s.cfg f = true) :
    exec (.serialize f) s = .next { s with ret := .bytes (serializeFrame s.cfg f) } :=
  if_pos hf

theorem exec_validate (input : Option Bytes) :
    exec (.validate input) s = .next { s with ret := checkedValue (validateInput s.cfg input) } := rfl

theorem exec_parse {bs : Bytes} (h : s.cfg.minLen ≤ bs.length) :
    exec (.parse bs) s = .next { s with ret := checkedValue (parseFrame s.cfg bs) } :=
  if_pos h

theorem exec_validateMalformed (k a q : Byte) (len : Nat) :
    exec (.validateMalformed k a q len) s = .next { s with ret := .bit (malformed s.cfg k a q len) } := rfl

theorem exec_sendFrame {kind : Kind} {q : Byte} {st : Station s.cfg} (hq : seqOk s.cfg q = true)
    (hsend : sendFrame kind (seqOf s.cfg q) s.station = .next st) :
    exec (.sendFrame kind q) s = .next { s with station := st } := by
  change execSendFrame kind q s = _
  rw [execSendFrame, withSeq_of_ok hq, onStation, hsend, chain_next]

/-- A handler of the station is its body and then the row GATE (R230, R258). -/
theorem onStation_endHandler (f : Station s.cfg → Result (Station s.cfg)) :
    onStation s (fun st => endHandler (f st)) = chain (onStation s f) (exec .gate) := by
  rw [chain_onStation, onStation, endHandler, chain_assoc]
  rfl

theorem exec_frameArrived_of_corrupt {input : Option Bytes} (h : validateInput s.cfg input = .corruptionError) :
    exec (.frameArrived input) s = chain (exec .corruptNak s) (exec .gate) := by
  calc exec (.frameArrived input) s
    _ = onStation s (fun st => endHandler (corruptNak st)) :=
      congrArg (onStation s) (funext fun st => onFrameArrived_of_corrupt st h)
    _ = chain (exec .corruptNak s) (exec .gate) := onStation_endHandler s corruptNak

end

/-! ### The statements -/

/-- Settles O11: a string of the layout is cut at its header and at its last `CK_LEN` bytes. -/
theorem parseExtractsTheFields : Obligations.ParseExtractsTheFields := by
  intro s k a q p tail htail
  rw [exec_parse s (minLen_le_length_layout k a q p htail)]
  constructor
  · intro hm
    rw [parseFrame_of_malformed htail hm, checkedValue]
  · intro hm
    obtain ⟨kind, rfl⟩ := exists_kind_of_not_malformed hm
    exact ⟨kind, rfl, by rw [parseFrame_of_not_malformed htail hm, checkedValue]⟩

/-- Settles O13: the bounds are those of a well-formed frame, and such a frame validates. -/
theorem validateOfSerializeIsTheFrame : Obligations.ValidateOfSerializeIsTheFrame :=
  fun _ _ hck ha hq hp hk => validateInput_serializeFrame hck (frameOk_of_bounds ha hq hp hk)

/-- Settles O31: the corruption indication is an error too, and every error ends in the same way. -/
theorem corruptInputsAreIndistinguishable : Obligations.CorruptInputsAreIndistinguishable := by
  intro s x h
  have hx := exec_frameArrived_of_corrupt s h
  exact ⟨hx.trans (exec_frameArrived_of_corrupt s rfl).symm, hx⟩

/-- Settles O8, kind by kind. -/
theorem buildAnswersTheFrame : Obligations.BuildAnswersTheFrame := by
  intro s q hle
  have hq := seqOk_of_le hle
  refine ⟨?_, ?_, exec_build s hq (build_ack _ _), exec_build s hq (build_nak _ _), fun p hp => ?_⟩
  · change execPiggyback s = _
    rw [execPiggyback, zext8_piggyback, answer]
  · rw [← zext8_piggyback, ← seqOf_eq_ofNat, seqOf_zext8, seqInc_piggyback]
  · rw [← seqOf_eq_ofNat] at hp
    have hbuild := build_data s.station hp
    rw [zext8_seqOf hq] at hbuild
    exact exec_build s hq hbuild

/-- Settles O9: the frames are well formed, and their bytes stand as `SERIALIZE` puts them. -/
theorem serializeLaysOutAndChecksums : Obligations.SerializeLaysOutAndChecksums := by
  intro s a q p ha hq hp
  exact ⟨exec_serialize s (frameOk_of_bounds ha hq hp (absurd rfl)),
    exec_serialize s (frameOk_of_bounds ha hq (Nat.zero_le _) fun _ => rfl),
    exec_serialize s (frameOk_of_bounds ha hq (Nat.zero_le _) fun _ => rfl),
    length_serializeFrame ⟨.data, a, q, p⟩⟩

/-- Settles O10, branch by branch. -/
theorem validateTestsLengthAndResidue : Obligations.ValidateTestsLengthAndResidue := by
  intro s bs
  refine ⟨⟨_, exec_validate s _⟩, exec_validate s none, fun h => ?_, fun hlen hres => ?_⟩
  · rw [exec_validate, validateInput_of_damaged h, checkedValue]
  · rw [exec_validate, validateInput_of_intact hlen hres, exec_parse s hlen]

/-- Settles O12: the answered bit is the truth of the five conditions. -/
theorem malformedIsTheFiveConditions : Obligations.MalformedIsTheFiveConditions := by
  intro s k a q len
  rw [exec_validateMalformed]
  congr 3
  rw [Bool.eq_iff_iff, decide_eq_true_iff]
  exact malformed_iff

/-- Settles O29, kind by kind. -/
theorem sendFrameTransmits : Obligations.SendFrameTransmits := by
  intro s q p hle
  have hq := seqOk_of_le hle
  refine ⟨fun hp => ?_, exec_sendFrame s hq (sendFrame_ack _ _), exec_sendFrame s hq (sendFrame_nak _ _), ?_⟩
  · rw [← seqOf_eq_ofNat] at hp
    have hsend := sendFrame_data s.station hp
    rw [zext8_seqOf hq] at hsend
    exact exec_sendFrame s hq hsend
  · change onStation s (sendFrame .nak 0) = _
    rw [onStation, sendFrame_nak, chain_next]

end Sys2Proof.Machine
end

section
/-! SUPPORT. The Sender Window (42_sender.md R160 to R166): what each of its four operations takes for its next state, how
far the `ACK_PROGRESS` loop runs, and why a resent frame and a retirement do not meet. -/

namespace Sys2Proof.Machine
open Sys2Proof

/-! ### The operations on the machine -/

section
variable (s : State)

theorem exec_submit {p : Packet} (hp : packetOk s.cfg p = true) (hin : s.station.intakeEn = true) :
    exec (.submit p) s = onStation s (submit p) := by
  change execSubmit p s = _
  rw [execSubmit, withPacket, if_pos hp, if_pos hin]

theorem exec_ackProgress {a : Byte} (ha : seqOk s.cfg a = true) :
    exec (.ackProgress a) s = .next { s with station := ackProgress (seqOf s.cfg a) s.station } := by
  change execAckProgress a s = _
  rw [execAckProgress, withSeq_of_ok ha, onStation, chain_next]

theorem exec_timeoutResend {q : Byte} (hq : seqOk s.cfg q = true) :
    exec (.timeoutResend q) s = onStation s (timeoutResend (seqOf s.cfg q)) :=
  withSeq_of_ok (k := fun k => onStation s (timeoutResend k)) hq

theorem exec_nakResend {a : Byte} (ha : seqOk s.cfg a = true) :
    exec (.nakResend a) s = onStation s (nakResend (seqOf s.cfg a)) :=
  withSeq_of_ok (k := fun k => onStation s (nakResend k)) ha

end

/-! ### How far the ACK_PROGRESS loop runs (R161, R164) -/

section
variable {c : Config} {st : Station c} {a : Seq c}

/-- A number is never between its successor and anything: it is the last the ring comes to. -/
theorem seqBetween_seqInc_left (a d : Seq c) : seqBetween (seqInc a) a d = false := by
  have := seq_lt d
  rw [Bool.eq_false_iff, ne_eq, seqBetween_iff, seqInc_eq]
  rcases toNat_add_one_cases a with h | h <;> omega

theorem ackLoop_stopped (k : Nat) (h : seqBetween st.ackExpected a st.nextFrameToSend = false) : ackLoop a k st = st := by
  cases k with
  | zero => rfl
  | succ k => rw [ackLoop, if_neg (Bool.eq_false_iff.1 h)]

/-- With `a` in the window the loop retires the numbers up to `a`, each round bringing `ack_expected` one nearer to it. -/
theorem ackLoop_eq_iterate_dist {d k : Nat} (hd : (a - st.ackExpected).toNat = d) (hk : d < k)
    (h : seqBetween st.ackExpected a st.nextFrameToSend = true) : ackLoop a k st = retireOldest^[d + 1] st := by
  induction d generalizing st k with
  | zero =>
    obtain ⟨k, rfl⟩ := Nat.exists_eq_succ_of_ne_zero (Nat.ne_of_gt hk)
    have hlast : st.ackExpected = a := (sub_eq_zero.1 (BitVec.eq_of_toNat_eq hd)).symm
    rw [ackLoop, if_pos h, ackLoop_stopped]
    · rfl
    · rw [ackExpected_retireOldest, hlast]
      exact seqBetween_seqInc_left a _
  | succ d ih =>
    obtain ⟨k, rfl⟩ := Nat.exists_eq_succ_of_ne_zero (Nat.ne_of_gt (Nat.zero_lt_of_lt hk))
    have hd' : (a - (retireOldest st).ackExpected).toNat = d := by
      rw [ackExpected_retireOldest, seqInc_eq, ← BitVec.sub_sub]
      rcases toNat_sub_one_cases (a - st.ackExpected) with h' | h' <;> omega
    have hne : a ≠ st.ackExpected := by
      rintro rfl
      simp at hd
    have h' : seqBetween (retireOldest st).ackExpected a (retireOldest st).nextFrameToSend = true := by
      rw [ackExpected_retireOldest, seqInc_eq]
      exact (seqBetween_advance h).2 hne
    rw [ackLoop, if_pos h, ih hd' (by omega) h', ← Function.iterate_succ_apply]

theorem ackProgress_idle (h : seqBetween st.ackExpected a st.nextFrameToSend = false) : ackProgress a st = st :=
  ackLoop_stopped c.M h

/-- What ACK_PROGRESS leaves when it retires: `d + 1` rounds of the loop's body, with `d` the distance of `ack`. -/
theorem ackProgress_retires (h : seqBetween st.ackExpected a st.nextFrameToSend = true) : ackProgress a st =
    { st with
      ackExpected := a + 1
      nbuffered := st.nbuffered - (a - st.ackExpected + 1)
      dataTimer := (retireOldest^[(a - st.ackExpected).toNat + 1] st).dataTimer } := by
  have hloop : ackProgress a st = retireOldest^[(a - st.ackExpected).toNat + 1] st :=
    ackLoop_eq_iterate_dist rfl (seq_lt _) h
  have hcount : BitVec.ofNat c.n ((a - st.ackExpected).toNat + 1) = a - st.ackExpected + 1 := by
    rw [BitVec.ofNat_add, BitVec.ofNat_toNat, BitVec.setWidth_eq]
    rfl
  rw [ackProgress_frame, hloop, ackExpected_retire_iterate, nbuffered_retire_iterate, hcount, ← BitVec.add_assoc,
    BitVec.add_comm st.ackExpected, BitVec.sub_add_cancel]

/-! ### A resent frame and a retirement (R165) -/

/-- Restarting one timer and retiring another slot's number are independent. -/
theorem retireOldest_startDataTimer {q : Seq c} (h : seqSlot st.ackExpected ≠ seqSlot q) :
    retireOldest (startDataTimer q st) = startDataTimer q (retireOldest st) := by
  have htimers : (stopDataTimer st.ackExpected (startDataTimer q st)).dataTimer
      = (startDataTimer q (stopDataTimer st.ackExpected st)).dataTimer := by
    rw [dataTimer_stopDataTimer, dataTimer_startDataTimer, bank_get_set_ne _ _ h]
    exact Vector.set_comm _ _ (fun e => h (Fin.ext e.symm))
  exact congrArg (fun dt => { retireOldest st with dataTimer := dt }) htimers

theorem outstanding_ackExpected (h : st.CoreInv) (hout : outstanding st a) : outstanding st st.ackExpected := by
  rw [outstanding_iff_dist h.occupancy, BitVec.sub_self]
  exact nbuffered_pos_of_outstanding h hout

/-- While `a` is outstanding its successor is not the oldest number. -/
theorem seqInc_ne_ackExpected (h : outstanding st a) : seqInc a ≠ st.ackExpected := by
  intro e
  rw [outstanding, ← e, seqBetween_seqInc_left] at h
  cases h

/-- One round of the ACK_PROGRESS loop: the invariants stay, and so does the successor of `ack`, in or out of the window. -/
theorem retireOldest_keeps (h : st.CoreInv) (hout : outstanding st a) :
    (retireOldest st).CoreInv ∧ (outstanding (retireOldest st) (seqInc a) ↔ outstanding st (seqInc a)) := by
  have hpos := nbuffered_pos_of_outstanding h hout
  exact ⟨h.retireOldest hpos,
    (outstanding_retireOldest h hpos _).trans (and_iff_left (seqInc_ne_ackExpected hout))⟩

theorem ackProgress_outstanding_iff (h : st.CoreInv) (a : Seq c) :
    outstanding (ackProgress a st) (seqInc a) ↔ outstanding st (seqInc a) := by
  refine (ackLoop_induct st a (fun st₁ => st₁.CoreInv ∧ (outstanding st₁ (seqInc a) ↔ outstanding st (seqInc a)))
    (fun st₁ hout h₁ => ?_) c.M ⟨h, Iff.rfl⟩).2
  obtain ⟨hcore, hiff⟩ := retireOldest_keeps h₁.1 hout
  exact ⟨hcore, hiff.trans h₁.2⟩

/-- The loop for `ack` and the resend of its successor: no number that the loop retires has the successor's slot. -/
theorem ackLoop_resend (h : st.CoreInv) (hout : outstanding st (seqInc a)) (bs : Bytes) (k : Nat) :
    ackLoop a k (startDataTimer (seqInc a) (transmit bs st)) = startDataTimer (seqInc a) (transmit bs (ackLoop a k st)) := by
  induction k generalizing st with
  | zero => rfl
  | succ k ih =>
    rw [ackLoop, ackLoop, ackExpected_startDataTimer, nextFrameToSend_startDataTimer, ackExpected_transmit,
      nextFrameToSend_transmit]
    split
    · next htest =>
      obtain ⟨hcore, hiff⟩ := retireOldest_keeps h htest
      have hslot : seqSlot st.ackExpected ≠ seqSlot (seqInc a) := fun e =>
        seqInc_ne_ackExpected htest (outstanding_slot_inj h hout (outstanding_ackExpected h htest) e.symm)
      rw [retireOldest_startDataTimer (st := transmit bs st) hslot]
      exact ih hcore (hiff.2 hout)
    · rfl

/-- R165, for every station of the core invariants. -/
theorem nakResend_ackProgress_comm (h : st.CoreInv) (a : Seq c) :
    chain (nakResend a st) (fun st₁ => .next (ackProgress a st₁)) = nakResend a (ackProgress a st) := by
  have hiff := ackProgress_outstanding_iff h a
  by_cases hout : outstanding st (seqInc a)
  · obtain ⟨p, hp⟩ := Option.isSome_iff_exists.1 (h.outWritten _ hout)
    have hp' : (ackProgress a st).outBuf.read (seqSlot (seqInc a)) = some p := by rwa [ackProgress_frame]
    have hack : ackByte (ackProgress a st) = ackByte st := by rw [ackProgress_frame]; rfl
    rw [nakResend_next _ hout hp, nakResend_next _ (hiff.2 hout) hp', hack, chain_next]
    exact congrArg Host.Outcome.next (ackLoop_resend h hout _ c.M)
  · rw [nakResend_idle _ (Bool.eq_false_iff.2 hout), nakResend_idle _ (Bool.eq_false_iff.2 (mt hiff.1 hout)), chain_next]

end

/-! ### The statements -/

/-- Settles O17: SUBMIT of a packet that fits is the station's, which has room. -/
theorem submitStoresSendsAndArms : Obligations.SubmitStoresSendsAndArms := by
  intro s p hp hin hroom
  rw [exec_submit s (decide_eq_true hp) hin, onStation, submit_next _ p hroom, chain_next, seqInc_eq]
  rfl

/-- Settles O18: the distances decide the loop's test, and the loop is `d + 1` rounds of its body or none. -/
theorem ackProgressRetiresUpToAck : Obligations.AckProgressRetiresUpToAck := by
  intro s a hle
  rw [exec_ackProgress s (seqOk_of_le hle), ← seqOf_eq_ofNat]
  refine ⟨fun hge => ?_, fun hlt => ?_⟩
  · have htest := mt (seqBetween_iff_dist _ (seqOf s.cfg a) _).1 (Nat.not_lt.2 hge)
    rw [ackProgress_idle (Bool.eq_false_iff.2 htest)]
  · rw [ackProgress_retires ((seqBetween_iff_dist _ _ _).2 hlt)]
    refine ⟨_, fun i => ?_, rfl⟩
    have htimers := dataTimer_retire_iterate s.station ((seqOf s.cfg a - s.station.ackExpected).toNat + 1) i
    simp only [Nat.lt_succ_iff] at htimers
    exact htimers

/-- Settles O19: the two timer fields are the precondition, and the byte of the number is the operand. -/
theorem timeoutResendsOneFrame : Obligations.TimeoutResendsOneFrame := by
  intro s q p hle k harmed hseq hp
  have hq := seqOk_of_le hle
  have hk : seqOf s.cfg q = k := seqOf_eq_ofNat q
  have hbyte : zext8 k = q := by rw [← hk, zext8_seqOf hq]
  rw [exec_timeoutResend s hq, onStation, hk, timeoutResend_next _ ((armedFor_iff _ k).2 ⟨harmed, hseq⟩) hp, chain_next,
    hbyte]
  rfl

/-- Settles O20: the two branches of the station's NAK_RESEND. -/
theorem nakResendsTheSuccessor : Obligations.NakResendsTheSuccessor := by
  intro s a hle t
  have ht : seqInc (seqOf s.cfg a) = t := by rw [seqOf_eq_ofNat, seqInc_ofNat]
  rw [exec_nakResend s (seqOk_of_le hle), onStation]
  refine ⟨fun p hout hp => ?_, fun hout => ?_⟩
  · rw [← ht] at hout hp
    rw [nakResend_next _ hout hp, chain_next, ht]
    rfl
  · rw [← ht] at hout
    rw [nakResend_idle _ hout, chain_next]

/-- Settles O21: NAK_RESEND sends one past `ack` and ACK_PROGRESS stops there. -/
theorem nakResendAndAckProgressCommute : Obligations.NakResendAndAckProgressCommute := by
  intro s a hinv hle
  have ha := seqOk_of_le hle
  have hcomm := nakResend_ackProgress_comm (.of_inv hinv) (seqOf s.cfg a)
  calc chain (exec (.nakResend a) s) (exec (.ackProgress a))
    _ = chain (nakResend (seqOf s.cfg a) s.station) fun st =>
        .next { s with station := ackProgress (seqOf s.cfg a) st } := by
      rw [exec_nakResend s ha, chain_onStation]
      exact congrArg (chain _) (funext fun st => exec_ackProgress { s with station := st } ha)
    _ = onStation { s with station := ackProgress (seqOf s.cfg a) s.station } (nakResend (seqOf s.cfg a)) := by
      rw [onStation, ← hcomm, chain_assoc]
      rfl
    _ = chain (exec (.ackProgress a) s) (exec (.nakResend a)) := by
      rw [exec_ackProgress s ha, chain_next]
      exact (exec_nakResend { s with station := ackProgress (seqOf s.cfg a) s.station } ha).symm

end Sys2Proof.Machine
end

section
/-! SUPPORT. How many frames an operation transmits (42_sender.md R166): a bound for each part of a handler, added up where
one part follows another. -/

namespace Sys2Proof.Machine
open Sys2Proof

section
variable {c : Config}

theorem transmitted_append (outs outs' : List Output) :
    transmitted (outs ++ outs') = transmitted outs ++ transmitted outs' :=
  List.filterMap_append

theorem transmitted_gate (st : Station c) : transmitted (gate st).outs = transmitted st.outs := by
  rw [outs_gate, transmitted_append]
  exact List.append_nil _

theorem transmitted_deliverExpected (p : Packet) (st : Station c) :
    transmitted (deliverExpected p st).outs = transmitted st.outs := by
  rw [outs_deliverExpected, transmitted_append]
  exact List.append_nil _

/-- A handler from `st` that ends in `r` transmits at most `k` frames, where it answers a station. -/
def RunTransmits (k : Nat) (st : Station c) (r : Result (Station c)) : Prop :=
  ∀ st', r = .next st' → (transmitted st'.outs).length ≤ (transmitted st.outs).length + k

theorem runTransmits_silent {k : Nat} {st st' : Station c} (h : transmitted st'.outs = transmitted st.outs) :
    RunTransmits k st (.next st') := by
  rintro _ ⟨⟩
  exact h ▸ Nat.le_add_right _ _

theorem runTransmits_refused (k : Nat) (st : Station c) (e : Refusal) : RunTransmits k st (.refused e) := by
  rintro _ ⟨⟩

theorem runTransmits_chain {j k : Nat} {st : Station c} {r : Result (Station c)} {f : Station c → Result (Station c)}
    (hr : RunTransmits j st r) (hf : ∀ st₁, RunTransmits k st₁ (f st₁)) : RunTransmits (j + k) st (chain r f) := by
  intro st' h
  obtain ⟨st₁, h₁, h₂⟩ := chain_eq_next.1 h
  have := hr st₁ h₁
  have := hf st₁ st' h₂
  omega

/-- What follows without a transmission keeps the bound. -/
theorem runTransmits_chain_next {k : Nat} {st : Station c} {r : Result (Station c)} {f : Station c → Station c}
    (hr : RunTransmits k st r) (hf : ∀ st₁, transmitted (f st₁).outs = transmitted st₁.outs) :
    RunTransmits k st (chain r fun st₁ => .next (f st₁)) :=
  runTransmits_chain (k := 0) hr fun st₁ => runTransmits_silent (hf st₁)

variable (st : Station c)

/-! ### The operations of the units -/

theorem sendFrame_transmits (kind : Kind) (q : Seq c) : RunTransmits 1 st (sendFrame kind q st) := by
  intro st' h
  obtain ⟨f, -, -, -, rfl⟩ := sendFrame_eq_next st h
  rw [transmitted_append, List.length_append]
  exact Nat.le_refl _

theorem endHandler_transmits {k : Nat} {r : Result (Station c)} (hr : RunTransmits k st r) :
    RunTransmits k st (endHandler r) :=
  runTransmits_chain_next hr transmitted_gate

theorem corruptNak_transmits : RunTransmits 1 st (corruptNak st) := by
  unfold corruptNak
  split
  · exact sendFrame_transmits st .nak 0
  · exact runTransmits_silent rfl

theorem submit_transmits (p : Packet) : RunTransmits 1 st (submit p st) := by
  unfold submit
  split
  · exact runTransmits_chain_next (sendFrame_transmits (storeNext p st) .data _) fun _ => rfl
  · exact runTransmits_refused _ _ _

theorem timeoutResend_transmits (q : Seq c) : RunTransmits 1 st (timeoutResend q st) := by
  unfold timeoutResend
  split
  · exact runTransmits_chain_next (sendFrame_transmits st .data q) fun _ => rfl
  · exact runTransmits_refused _ _ _

theorem nakResend_transmits (a : Seq c) : RunTransmits 1 st (nakResend a st) := by
  unfold nakResend
  split
  · exact runTransmits_chain_next (sendFrame_transmits st .data _) fun _ => rfl
  · exact runTransmits_silent rfl

theorem outs_ackProgress (a : Seq c) : (ackProgress a st).outs = st.outs := by rw [ackProgress_frame]

theorem outs_onFrameDataStep2 (q : Seq c) (p : Packet) : (onFrameDataStep2 q p st).outs = st.outs := by
  rw [onFrameDataStep2_frame]

theorem onFrameDataStep1_transmits (q : Seq c) : RunTransmits 1 st (onFrameDataStep1 q st) := by
  unfold onFrameDataStep1
  split
  · exact sendFrame_transmits st .nak 0
  · exact runTransmits_silent rfl

theorem onFrameDataStep3_transmits : RunTransmits 0 st (onFrameDataStep3 st) := fun _ h =>
  Nat.le_of_eq (drainLoop_induct st (fun st₁ => (transmitted st₁.outs).length = (transmitted st.outs).length)
    (fun st₁ p _ _ h₁ => by rw [transmitted_deliverExpected, h₁]) c.nrBufs rfl h)

theorem onFrameData_transmits (q : Seq c) (p : Packet) : RunTransmits 1 st (onFrameData q p st) :=
  runTransmits_chain (k := 0) (onFrameDataStep1_transmits st q) fun st₁ st' h => by
    rw [← outs_onFrameDataStep2 st₁ q p]
    exact onFrameDataStep3_transmits _ st' h

theorem receiveFrame_transmits (f : Frame) : RunTransmits 1 st (receiveFrame f st) := by
  refine runTransmits_chain_next ?_ fun st₁ => by rw [outs_ackProgress]
  cases f.kind with
  | data => exact onFrameData_transmits st _ _
  | ack => exact runTransmits_silent rfl
  | nak => exact nakResend_transmits st _

/-! ### The events -/

theorem onNewPacketReady_transmits (packet : Option Packet) : RunTransmits 1 st (onNewPacketReady packet st) := by
  unfold onNewPacketReady
  split
  · refine endHandler_transmits st ?_
    cases packet with
    | some p => exact submit_transmits st p
    | none => exact runTransmits_silent rfl
  · exact runTransmits_refused _ _ _

theorem onFrameArrived_transmits (input : Option Bytes) : RunTransmits 1 st (onFrameArrived input st) := by
  refine endHandler_transmits st ?_
  cases validateInput c input with
  | corruptionError => exact corruptNak_transmits st
  | frame f => exact receiveFrame_transmits st f

theorem onAckTimeout_transmits : RunTransmits 1 st (onAckTimeout st) := by
  unfold onAckTimeout
  split
  · exact endHandler_transmits st (sendFrame_transmits (stopAckTimer st) .ack 0)
  · exact runTransmits_refused _ _ _

/-- R166, on the station: at most one of the parts of any operation transmits. -/
theorem handler_transmits (i : Instr) : RunTransmits 1 st (handler i st) := by
  cases i with
  | data | ack | nak => exact endHandler_transmits st (receiveFrame_transmits st _)
  | newPacketReady packet => exact onNewPacketReady_transmits st packet
  | channelReady => exact runTransmits_silent (transmitted_gate (setChReady st))
  | frameArrived input => exact onFrameArrived_transmits st input
  | dataTimeout => exact endHandler_transmits st (timeoutResend_transmits st _)
  | ackTimeout => exact onAckTimeout_transmits st
  | inc | pred | addw | slot | dist | between => exact runTransmits_silent rfl
  | build | serialize | piggyback | validate | parse | validateMalformed => exact runTransmits_silent rfl
  | submit p => exact submit_transmits st p
  | ackProgress => exact runTransmits_silent (by rw [outs_ackProgress])
  | timeoutResend => exact timeoutResend_transmits st _
  | nakResend => exact nakResend_transmits st _
  | onFrameDataStep1 => exact onFrameDataStep1_transmits st _
  | onFrameDataStep2 => exact runTransmits_silent (by rw [outs_onFrameDataStep2])
  | onFrameDataStep3 =>
    exact fun st' h => (onFrameDataStep3_transmits st st' h).trans (Nat.le_succ _)
  | onFrameData => exact onFrameData_transmits st _ _
  | startDataTimer | stopDataTimer | startAckTimer | stopAckTimer => exact runTransmits_silent rfl
  | sendFrame kind => exact sendFrame_transmits st kind _
  | sendFrameNak => exact sendFrame_transmits st .nak 0
  | corruptNak => exact corruptNak_transmits st
  | gate => exact runTransmits_silent (transmitted_gate st)

end

/-- Settles O55: an operation is its handler, and the handler transmits at most one frame. -/
theorem atMostOneTransmissionPerOperation : Obligations.AtMostOneTransmissionPerOperation := by
  intro i s t h
  obtain ⟨st, v, hr, rfl⟩ := ran_handler_of_exec h
  exact handler_transmits s.station i st hr

end Sys2Proof.Machine
end

section
/-! SUPPORT. The Receiver Window on the machine (43_receiver.md R180 to R183): each step of ON_FRAME_DATA and their
composition, what the composition answers, and that it transmits nothing for the frame expected next. -/

namespace Sys2Proof.Machine
open Sys2Proof

theorem seqOf_eq_iff {c : Config} {q : Byte} (hq : q.toNat ≤ c.maxSeq) (k : Seq c) : seqOf c q = k ↔ q.toNat = k.toNat := by
  rw [← BitVec.toNat_inj, toNat_seqOf_of_ok (seqOk_of_le hq)]

/-! ### The operations on the machine -/

section
variable (s : State)

theorem exec_onFrameDataStep1 {q : Byte} (hq : seqOk s.cfg q = true) :
    exec (.onFrameDataStep1 q) s = onStation s (onFrameDataStep1 (seqOf s.cfg q)) :=
  withSeq_of_ok (k := fun k => onStation s (onFrameDataStep1 k)) hq

theorem exec_onFrameDataStep2 {q : Byte} {p : Packet} (hq : seqOk s.cfg q = true) (hp : packetOk s.cfg p = true) :
    exec (.onFrameDataStep2 q p) s = .next { s with station := onFrameDataStep2 (seqOf s.cfg q) p s.station } := by
  change execOnFrameDataStep2 q p s = _
  rw [execOnFrameDataStep2, withSeq_of_ok hq, withPacket, if_pos hp, onStation, chain_next]

theorem exec_onFrameData {a q : Byte} {p : Packet} (hf : frameOk s.cfg ⟨.data, a, q, p⟩ = true) :
    exec (.onFrameData ⟨.data, a, q, p⟩) s = onStation s (onFrameData (seqOf s.cfg q) p) :=
  if_pos hf

/-- R183: the steps run one after another by the machine are the composition run by the station. -/
theorem exec_onFrameData_eq_chain {a q : Byte} {p : Packet} (ha : a.toNat ≤ s.cfg.maxSeq) (hq : q.toNat ≤ s.cfg.maxSeq)
    (hp : p.length ≤ s.cfg.pktMax) : exec (.onFrameData ⟨.data, a, q, p⟩) s
      = chain (exec (.onFrameDataStep1 q) s) fun t => chain (exec (.onFrameDataStep2 q p) t) (exec .onFrameDataStep3) := by
  have hstep2 : ∀ st : Station s.cfg, exec (.onFrameDataStep2 q p) { s with station := st }
      = .next { s with station := onFrameDataStep2 (seqOf s.cfg q) p st } := fun st =>
    exec_onFrameDataStep2 { s with station := st } (seqOk_of_le hq) (decide_eq_true hp)
  rw [exec_onFrameData s (frameOk_of_bounds ha hq hp (absurd rfl)), exec_onFrameDataStep1 s (seqOk_of_le hq),
    chain_onStation, onStation, onFrameData, chain_assoc]
  refine congrArg (chain _) (funext fun st => ?_)
  rw [hstep2, chain_next]
  rfl

end

/-! ### What ON_FRAME_DATA answers (R183) -/

section
variable {c : Config} (st : Station c)

theorem onFrameDataStep1_of_expected : onFrameDataStep1 st.frameExpected st = .next (startAckTimer st) := by
  rw [onFrameDataStep1_cases, if_neg fun h => h.1 rfl]

/-- Step 1 leaves the input memory and its marks alone. -/
theorem onFrameDataStep1_arrivedWritten {q : Seq c} {st' : Station c} (hr : onFrameDataStep1 q st = .next st')
    (h : arrivedWritten st) : arrivedWritten st' := by
  rw [onFrameDataStep1_cases] at hr
  injection hr with hr
  subst hr
  split <;> exact h

/-- With every marked slot written ON_FRAME_DATA never stops: only the drain loop reads a slot. -/
theorem onFrameData_completes (q : Seq c) (p : Packet) (h : arrivedWritten st) :
    ∃ st', onFrameData q p st = .next st' := by
  have h₁ := onFrameDataStep1_cases st q
  rw [onFrameData, h₁, chain_next]
  exact drainLoop_completes _ _ (onFrameDataStep2_arrivedWritten _ q p (onFrameDataStep1_arrivedWritten st h₁ h))

theorem transmitted_onFrameDataStep3 {st' : Station c} (hr : onFrameDataStep3 st = .next st') :
    transmitted st'.outs = transmitted st.outs :=
  drainLoop_induct st (fun st₁ => transmitted st₁.outs = transmitted st.outs)
    (fun st₁ p _ _ h => (transmitted_deliverExpected p st₁).trans h) c.nrBufs rfl hr

/-- R183: an in-order frame transmits nothing. -/
theorem transmitted_onFrameData_of_expected {p : Packet} {st' : Station c}
    (hr : onFrameData st.frameExpected p st = .next st') : transmitted st'.outs = transmitted st.outs := by
  rw [onFrameData, onFrameDataStep1_of_expected, chain_next] at hr
  rw [transmitted_onFrameDataStep3 _ hr, outs_onFrameDataStep2, outs_startAckTimer]

end

/-! ### The statements -/

/-- Settles O22: the station's step 1 never stops, and the operand differs from `frame_expected` as a number. -/
theorem stepOneNaksOrArmsTheAckTimer : Obligations.StepOneNaksOrArmsTheAckTimer := by
  intro s q hq
  rw [exec_onFrameDataStep1 s (seqOk_of_le hq), onStation, onFrameDataStep1_cases, chain_next, ne_eq, ← seqOf_eq_iff hq]
  refine ⟨fun h => ?_, fun h => ?_⟩
  · rw [if_pos h]
  · rw [if_neg h]
    rfl

/-- Settles O23, by the two branches of step 2. -/
theorem stepTwoStoresWhatIsAcceptable : Obligations.StepTwoStoresWhatIsAcceptable := by
  intro s q p hq hp
  rw [exec_onFrameDataStep2 s (seqOk_of_le hq) (decide_eq_true hp), seqOf_eq_ofNat, onFrameDataStep2]
  refine ⟨fun h => ?_, fun h => ?_⟩
  · rw [if_pos h]
  · rw [if_neg h]

/-- Settles O25: only step 1 transmits, and not for the frame expected next. -/
theorem onFrameDataIsItsThreeSteps : Obligations.OnFrameDataIsItsThreeSteps := by
  intro s a q p ha hq hp
  refine ⟨exec_onFrameData_eq_chain s ha hq hp, fun h => ?_⟩
  obtain ⟨st, hst⟩ := onFrameData_completes s.station (seqOf s.cfg q) p h
  refine ⟨{ s with station := st }, ?_, fun he => ?_⟩
  · rw [exec_onFrameData s (frameOk_of_bounds ha hq hp (absurd rfl)), onStation, hst, chain_next]
  · rw [(seqOf_eq_iff hq _).2 he] at hst
    exact transmitted_onFrameData_of_expected s.station hst

end Sys2Proof.Machine
end

section
/-! SUPPORT. The drain loop as a whole (43_receiver.md R182): its rounds one after another deliver a list of packets, which is
the run of marked slots from `frame_expected` on. -/

namespace Sys2Proof.Machine
open Sys2Proof

section
variable {c : Config}

/-- The rounds of the drain loop that deliver the packets `ps`, first to last. -/
def deliverRun (ps : List Packet) (st : Station c) : Station c := ps.foldl (fun st₁ p => deliverExpected p st₁) st

/-- The slots of the numbers from `frame_expected` on are marked and hold the packets `ps`, as far as `ps` goes. -/
def MarkedRun (ps : List Packet) (st : Station c) : Prop :=
  ∀ (j : Nat) (h : j < ps.length),
    st.arrived.get (seqSlot (st.frameExpected + BitVec.ofNat c.n j)) = true ∧
    st.inBuf.read (seqSlot (st.frameExpected + BitVec.ofNat c.n j)) = some ps[j]

variable (st : Station c)

@[simp] theorem deliverRun_nil : deliverRun [] st = st := rfl

@[simp] theorem deliverRun_cons (p : Packet) (ps : List Packet) :
    deliverRun (p :: ps) st = deliverRun ps (deliverExpected p st) := rfl

/-- One past `frame_expected`, counted from there, is one more counted from `frame_expected`. -/
theorem seqInc_add_ofNat (k : Seq c) (j : Nat) : seqInc k + BitVec.ofNat c.n j = k + BitVec.ofNat c.n (j + 1) := by
  rw [seqInc_eq, Nat.add_comm j 1, BitVec.ofNat_add, ← BitVec.add_assoc]
  rfl

/-! ### What the rounds do -/

/-- The registers after the rounds that deliver `ps`; the bitmap is that of `arrived_deliverRun`. -/
theorem deliverRun_registers (ps : List Packet) : deliverRun ps st =
    { st with
      outs := st.outs ++ ps.map .deliver
      arrived := (deliverRun ps st).arrived
      noNak := st.noNak || !ps.isEmpty
      frameExpected := st.frameExpected + BitVec.ofNat c.n ps.length
      tooFar := st.tooFar + BitVec.ofNat c.n ps.length
      ackTimer := if ps.isEmpty then st.ackTimer else ⟨true, c.ackTimerDuration⟩ } := by
  induction ps generalizing st with
  | nil => simp
  | cons p ps ih =>
    rw [deliverRun_cons, ih]
    simp [seqInc_add_ofNat, deliverExpected, startAckTimer, deliver]

/-- The rounds clear the marks of the numbers they deliver, and no others. -/
theorem arrived_deliverRun (ps : List Packet) (i : Slot c) : (deliverRun ps st).arrived.get i = true ↔
    st.arrived.get i = true ∧ ∀ j < ps.length, seqSlot (st.frameExpected + BitVec.ofNat c.n j) ≠ i := by
  induction ps generalizing st with
  | nil => simp
  | cons p ps ih =>
    rw [deliverRun_cons, ih, arrived_deliverExpected, frameExpected_deliverExpected, bank_get_set, List.length_cons,
      Nat.forall_lt_succ_left]
    simp only [seqInc_add_ofNat, BitVec.add_zero, ne_eq]
    by_cases hi : i = seqSlot st.frameExpected
    · simp [hi]
    · simp [hi, Ne.symm hi]

/-- A run after one round is a run that begins with the packet of that round. -/
theorem markedRun_cons {p : Packet} {ps : List Packet} (ha : st.arrived.get (seqSlot st.frameExpected) = true)
    (hp : st.inBuf.read (seqSlot st.frameExpected) = some p) (h : MarkedRun ps (deliverExpected p st)) :
    MarkedRun (p :: ps) st := by
  intro j hj
  cases j with
  | zero =>
    rw [BitVec.add_zero]
    exact ⟨ha, hp⟩
  | succ j =>
    obtain ⟨hmark, hread⟩ := h j (Nat.lt_of_succ_lt_succ hj)
    rw [frameExpected_deliverExpected, seqInc_add_ofNat] at hmark hread
    rw [arrived_deliverExpected, bank_get_set] at hmark
    split at hmark
    · cases hmark
    · exact ⟨hmark, hread⟩

/-! ### The loop is the rounds of a run -/

theorem drainLoop_delivers_run (k : Nat) (h : arrivedWritten st) :
    ∃ ps : List Packet, ps.length ≤ k ∧ MarkedRun ps st ∧ drainLoop k st = .next (deliverRun ps st) := by
  induction k generalizing st with
  | zero => exact ⟨[], Nat.le_refl _, nofun, rfl⟩
  | succ k ih =>
    rw [drainLoop]
    split
    · next ha =>
      obtain ⟨p, hp⟩ := Option.isSome_iff_exists.1 (h _ ha)
      obtain ⟨ps, hlen, hrun, hr⟩ := ih _ (deliverExpected_arrivedWritten st p h)
      rw [hp]
      exact ⟨p :: ps, Nat.succ_le_succ hlen, markedRun_cons st ha hp hrun, hr⟩
    · exact ⟨[], Nat.zero_le _, nofun, rfl⟩

end

/-! ### The statement -/

/-- Settles O24: the loop runs the rounds of a run and ends at a missing packet. -/
theorem drainDeliversTheRunInOrder : Obligations.DrainDeliversTheRunInOrder := by
  intro s h
  obtain ⟨ps, hlen, hrun, hr⟩ := drainLoop_delivers_run s.station s.cfg.nrBufs h
  have hgap := onFrameDataStep3_missing hr
  rw [deliverRun_registers] at hgap hr
  refine ⟨ps, (deliverRun ps s.station).arrived, hlen, hrun, hgap, arrived_deliverRun s.station ps, ?_⟩
  change onStation s onFrameDataStep3 = _
  rw [onStation, onFrameDataStep3, hr, chain_next]

end Sys2Proof.Machine
end

section
/-! SUPPORT. What an operation does to the outputs, to `no_nak` and to `frame_expected` (43_receiver.md R184, R185;
44_timers_nak.md R205, R206): it is a sequence of acts of a few kinds, and each operation may send certain frames only. A
count over the outputs is then a matter of one act. -/

namespace Sys2Proof.Machine
open Sys2Proof

/-! ### Acts -/

/-- A DATA frame, or a NAK while `no_nak = 1` (R180, R206, R207). -/
def inTurn (kind : Kind) (noNak : Bool) : Prop := kind = .data ∨ (kind = .nak ∧ noNak = true)

/-- The frames an operation may send, by their kind and the value of `no_nak` at that moment: those in turn, but for
ACK_TIMEOUT (R185) and the operations that are a bare SendFrame (R205). -/
def permits (i : Instr) (kind : Kind) (noNak : Bool) : Prop :=
  match i with
  | .ackTimeout => kind = .ack
  | .sendFrame k _ => kind = k
  | .sendFrameNak => kind = .nak
  | _ => inTurn kind noNak

section
variable {c : Config}

/-- One act of a handler under the permission `may`: a write of other registers, the gate, a frame sent, or a round of the
drain loop. -/
inductive Act (may : Kind → Bool → Prop) : Station c → Station c → Prop where
  | silent {st st' : Station c} (houts : st'.outs = st.outs) (hnak : st'.noNak = st.noNak)
      (hexp : st'.frameExpected = st.frameExpected) : Act may st st'
  | gate (st : Station c) : Act may st (gate st)
  | send {st st' : Station c} {kind : Kind} {q : Seq c} (hmay : may kind st.noNak)
      (h : sendFrame kind q st = .next st') : Act may st st'
  | deliver (p : Packet) (st : Station c) : Act may st (deliverExpected p st)

/-- What an act keeps, a sequence of acts keeps. -/
theorem acts_keep {may : Kind → Bool → Prop} {P : Station c → Prop} (hP : ∀ {st st'}, Act may st st' → P st → P st')
    {st st' : Station c} (h : Relation.ReflTransGen (Act may) st st') (h₀ : P st) : P st' := by
  induction h with
  | refl => exact h₀
  | tail _ hact ih => exact hP hact ih

/-- A handler from `st` that ends in `r` is a sequence of acts, where it answers a station. -/
def RunActs (may : Kind → Bool → Prop) (st : Station c) (r : Result (Station c)) : Prop :=
  ∀ st', r = .next st' → Relation.ReflTransGen (Act may) st st'

variable {may : Kind → Bool → Prop} {st : Station c}

theorem runActs_refl : RunActs may st (.next st) := by
  rintro _ ⟨⟩
  exact .refl

theorem runActs_single {st' : Station c} (h : Act may st st') : RunActs may st (.next st') := by
  rintro _ ⟨⟩
  exact .single h

theorem runActs_refused {e : Refusal} : RunActs may st (.refused e) := by
  rintro _ ⟨⟩

theorem runActs_chain {r : Result (Station c)} {f : Station c → Result (Station c)} (hr : RunActs may st r)
    (hf : ∀ st₁, RunActs may st₁ (f st₁)) : RunActs may st (chain r f) := by
  intro st' h
  obtain ⟨st₁, h₁, h₂⟩ := chain_eq_next.1 h
  exact (hr st₁ h₁).trans (hf st₁ st' h₂)

/-- A handler may begin with an act. -/
theorem runActs_after {st₁ : Station c} {r : Result (Station c)} (h : Act may st st₁) (hr : RunActs may st₁ r) :
    RunActs may st r :=
  fun st' h' => .head h (hr st' h')

theorem sendFrame_acts {kind : Kind} {q : Seq c} (h : may kind st.noNak) : RunActs may st (sendFrame kind q st) :=
  fun _ hr => .single (.send h hr)

theorem endHandler_acts {r : Result (Station c)} (hr : RunActs may st r) : RunActs may st (endHandler r) :=
  runActs_chain hr fun st₁ => runActs_single (.gate st₁)

/-! ### The operations of the units are acts -/

/-- A DATA frame goes out, and what follows it touches neither outputs nor the receiver's registers. -/
theorem sendData_acts (hdata : ∀ b, may .data b) {q : Seq c} {f : Station c → Station c}
    (hf : ∀ st₁, Act may st₁ (f st₁)) : RunActs may st (chain (sendFrame .data q st) fun st₁ => .next (f st₁)) :=
  runActs_chain (sendFrame_acts (hdata _)) fun st₁ => runActs_single (hf st₁)

theorem submit_acts (hdata : ∀ b, may .data b) (p : Packet) : RunActs may st (submit p st) := by
  unfold submit
  split
  · exact runActs_after (st₁ := storeNext p st) (.silent rfl rfl rfl) (sendData_acts hdata fun _ => .silent rfl rfl rfl)
  · exact runActs_refused

theorem timeoutResend_acts (hdata : ∀ b, may .data b) (q : Seq c) : RunActs may st (timeoutResend q st) := by
  unfold timeoutResend
  split
  · exact sendData_acts hdata fun _ => .silent rfl rfl rfl
  · exact runActs_refused

theorem nakResend_acts (hdata : ∀ b, may .data b) (a : Seq c) : RunActs may st (nakResend a st) := by
  unfold nakResend
  split
  · exact sendData_acts hdata fun _ => .silent rfl rfl rfl
  · exact runActs_refl

theorem ackProgress_act (a : Seq c) : Act may st (ackProgress a st) := by
  rw [ackProgress_frame]
  exact .silent rfl rfl rfl

theorem corruptNak_acts (hnak : may .nak true) : RunActs may st (corruptNak st) := by
  unfold corruptNak
  split
  · next h => exact sendFrame_acts (h ▸ hnak)
  · exact runActs_refl

theorem onFrameDataStep1_acts (hnak : may .nak true) (q : Seq c) : RunActs may st (onFrameDataStep1 q st) := by
  unfold onFrameDataStep1
  split
  · next h => exact sendFrame_acts (h.2 ▸ hnak)
  · exact runActs_single (.silent rfl rfl rfl)

theorem onFrameDataStep2_act (q : Seq c) (p : Packet) : Act may st (onFrameDataStep2 q p st) := by
  rw [onFrameDataStep2_frame]
  exact .silent rfl rfl rfl

theorem onFrameDataStep3_acts : RunActs may st (onFrameDataStep3 st) := fun _ h =>
  drainLoop_induct st (Relation.ReflTransGen (Act may) st) (fun st₁ p _ _ h₁ => h₁.tail (.deliver p st₁)) c.nrBufs .refl h

theorem onFrameData_acts (hnak : may .nak true) (q : Seq c) (p : Packet) : RunActs may st (onFrameData q p st) :=
  runActs_chain (onFrameDataStep1_acts hnak q) fun _ => runActs_after (onFrameDataStep2_act q p) onFrameDataStep3_acts

/-! ### The handlers of the events are acts -/

theorem receiveFrame_acts (hdata : ∀ b, may .data b) (hnak : may .nak true) (f : Frame) :
    RunActs may st (receiveFrame f st) := by
  refine runActs_chain ?_ fun st₁ => runActs_single (ackProgress_act _)
  cases f.kind with
  | data => exact onFrameData_acts hnak _ _
  | ack => exact runActs_refl
  | nak => exact nakResend_acts hdata _

theorem onNewPacketReady_acts (hdata : ∀ b, may .data b) (packet : Option Packet) :
    RunActs may st (onNewPacketReady packet st) := by
  unfold onNewPacketReady
  split
  · refine endHandler_acts ?_
    cases packet with
    | some p => exact submit_acts hdata p
    | none => exact runActs_refl
  · exact runActs_refused

theorem onFrameArrived_acts (hdata : ∀ b, may .data b) (hnak : may .nak true) (input : Option Bytes) :
    RunActs may st (onFrameArrived input st) := by
  refine endHandler_acts ?_
  cases validateInput c input with
  | corruptionError => exact corruptNak_acts hnak
  | frame f => exact receiveFrame_acts hdata hnak f

theorem onAckTimeout_acts (hack : ∀ b, may .ack b) : RunActs may st (onAckTimeout st) := by
  unfold onAckTimeout
  split
  · exact endHandler_acts (runActs_after (st₁ := stopAckTimer st) (.silent rfl rfl rfl) (sendFrame_acts (hack _)))
  · exact runActs_refused

/-- Every operation is a sequence of acts, and sends only what it is permitted to. -/
theorem handler_acts (i : Instr) : RunActs (permits i) st (handler i st) := by
  have hdata : ∀ b, inTurn .data b := fun _ => .inl rfl
  have hnak : inTurn .nak true := .inr ⟨rfl, rfl⟩
  cases i with
  | data | ack | nak => exact endHandler_acts (receiveFrame_acts hdata hnak _)
  | newPacketReady packet => exact onNewPacketReady_acts hdata packet
  | channelReady => exact runActs_after (st₁ := setChReady st) (.silent rfl rfl rfl) (runActs_single (.gate _))
  | frameArrived input => exact onFrameArrived_acts hdata hnak input
  | dataTimeout => exact endHandler_acts (timeoutResend_acts hdata _)
  | ackTimeout => exact onAckTimeout_acts fun _ => rfl
  | inc | pred | addw | slot | dist | between => exact runActs_refl
  | build | serialize | piggyback | validate | parse | validateMalformed => exact runActs_refl
  | submit p => exact submit_acts hdata p
  | ackProgress => exact runActs_single (ackProgress_act _)
  | timeoutResend => exact timeoutResend_acts hdata _
  | nakResend => exact nakResend_acts hdata _
  | onFrameDataStep1 => exact onFrameDataStep1_acts hnak _
  | onFrameDataStep2 => exact runActs_single (onFrameDataStep2_act _ _)
  | onFrameDataStep3 => exact onFrameDataStep3_acts
  | onFrameData => exact onFrameData_acts hnak _ _
  | startDataTimer | stopDataTimer | startAckTimer | stopAckTimer => exact runActs_single (.silent rfl rfl rfl)
  | sendFrame kind => exact sendFrame_acts (may := permits (.sendFrame kind _)) rfl
  | sendFrameNak => exact sendFrame_acts (may := permits .sendFrameNak) (q := 0) rfl
  | corruptNak => exact corruptNak_acts hnak
  | gate => exact runActs_single (.gate st)

/-! ### What one output counts -/

theorem kindCode_inj {k k' : Kind} : kindCode k = kindCode k' ↔ k = k' := by
  refine ⟨fun h => Option.some_inj.1 ?_, congrArg kindCode⟩
  rw [← kindOf_kindCode k, h, kindOf_kindCode]

theorem isFrameOf_serializeFrame (k : Kind) (f : Frame) :
    Output.isFrameOf k (.transmit (serializeFrame c f)) = decide (f.kind = k) := by
  rw [Output.isFrameOf, head_serializeFrame, Bool.eq_iff_iff, beq_iff_eq, Option.some_inj, kindCode_inj, decide_eq_true_iff]

/-- The frames of a kind, counted as `nakCount` and R185 count them, one output more. -/
theorem countP_isFrameOf_transmit (k : Kind) (outs : List Output) (f : Frame) :
    (outs ++ [Output.transmit (serializeFrame c f)]).countP (Output.isFrameOf k)
      = outs.countP (Output.isFrameOf k) + if f.kind = k then 1 else 0 := by
  simp [List.countP_append, List.countP_singleton, isFrameOf_serializeFrame]

theorem countP_isFrameOf_intake (k : Kind) (outs : List Output) (b : Bool) :
    (outs ++ [Output.intake b]).countP (Output.isFrameOf k) = outs.countP (Output.isFrameOf k) :=
  List.countP_append

theorem countP_isFrameOf_deliver (k : Kind) (outs : List Output) (p : Packet) :
    (outs ++ [Output.deliver p]).countP (Output.isFrameOf k) = outs.countP (Output.isFrameOf k) :=
  List.countP_append

theorem deliverCount_append (outs outs' : List Output) :
    deliverCount (outs ++ outs') = deliverCount outs + deliverCount outs' := by
  rw [deliverCount, delivered, List.filterMap_append, List.length_append]
  rfl

theorem deliverCount_transmit (outs : List Output) (bs : Bytes) :
    deliverCount (outs ++ [Output.transmit bs]) = deliverCount outs :=
  deliverCount_append _ _

theorem deliverCount_intake (outs : List Output) (b : Bool) :
    deliverCount (outs ++ [Output.intake b]) = deliverCount outs :=
  deliverCount_append _ _

theorem deliverCount_deliver (outs : List Output) (p : Packet) :
    deliverCount (outs ++ [Output.deliver p]) = deliverCount outs + 1 :=
  deliverCount_append _ _

/-! ### What one act counts -/

variable {st' : Station c}

/-- An act that may not send an ACK leaves their number as it is. -/
theorem Act.ackCount (h : Act may st st') (hack : ∀ b, ¬may .ack b) :
    st'.outs.countP (Output.isFrameOf .ack) = st.outs.countP (Output.isFrameOf .ack) := by
  cases h with
  | silent houts => rw [houts]
  | gate => exact countP_isFrameOf_intake _ _ _
  | send hmay h =>
    obtain ⟨f, rfl, -, -, rfl⟩ := sendFrame_eq_next st h
    have hne : f.kind ≠ .ack := fun e => hack _ (e ▸ hmay)
    rw [countP_isFrameOf_transmit, if_neg hne, Nat.add_zero]
  | deliver => exact countP_isFrameOf_deliver _ _ _

/-- `State.NakInv` of the station (R206). -/
def NaksWithinDeliveries (st : Station c) : Prop :=
  nakCount st.outs + (if st.noNak then 1 else 0) ≤ deliverCount st.outs + 1

/-- A NAK uses up `no_nak`, and a delivery restores it. -/
theorem Act.naksWithinDeliveries (h : Act may st st') (hnak : ∀ b, may .nak b → b = true)
    (hst : NaksWithinDeliveries st) : NaksWithinDeliveries st' := by
  unfold NaksWithinDeliveries nakCount at hst ⊢
  cases h with
  | silent houts hn => rwa [houts, hn]
  | gate => rwa [outs_gate, countP_isFrameOf_intake, deliverCount_intake]
  | send hmay h =>
    obtain ⟨f, rfl, -, -, rfl⟩ := sendFrame_eq_next st h
    rw [countP_isFrameOf_transmit, deliverCount_transmit]
    by_cases hf : f.kind = .nak
    · have hb : st.noNak = true := hnak _ (hf ▸ hmay)
      simpa [hf, hb] using hst
    · simpa [hf] using hst
  | deliver =>
    rw [outs_deliverExpected, countP_isFrameOf_deliver, deliverCount_deliver, noNak_deliverExpected, if_pos rfl]
    omega

/-- `State.DeliveryInv` of the station (R184). -/
def ExpectedCountsDeliveries (st : Station c) : Prop := st.frameExpected = BitVec.ofNat c.n (deliverCount st.outs)

/-- A delivery advances `frame_expected`, and nothing else does. -/
theorem Act.expectedCountsDeliveries (h : Act may st st') (hst : ExpectedCountsDeliveries st) :
    ExpectedCountsDeliveries st' := by
  unfold ExpectedCountsDeliveries at hst ⊢
  cases h with
  | silent houts _ hexp => rwa [houts, hexp]
  | gate => rwa [outs_gate, deliverCount_intake]
  | send _ h =>
    obtain ⟨f, -, -, -, rfl⟩ := sendFrame_eq_next st h
    rwa [deliverCount_transmit]
  | deliver => rw [outs_deliverExpected, frameExpected_deliverExpected, deliverCount_deliver, hst, seqInc_ofNat]

end

/-! ### Who may send an ACK, and who a NAK without asking -/

theorem eq_of_permits_ack {i : Instr} {b : Bool} (h : permits i .ack b) :
    i = .ackTimeout ∨ ∃ q, i = .sendFrame .ack q := by
  unfold permits at h
  split at h
  · exact .inl rfl
  · exact .inr ⟨_, by rw [h]⟩
  · cases h
  · rcases h with h | ⟨h, -⟩ <;> cases h

/-- Only operations that are never decoded (R101) send a NAK while `no_nak = 0`. -/
theorem noNak_of_permits_nak {c : Config} {i : Instr} {b : Bool} (h : permits i .nak b)
    (henc : (encode c i).isSome = true) : b = true := by
  unfold permits at h
  split at h
  · cases h
  · cases henc
  · cases henc
  · rcases h with h | ⟨-, h⟩
    · cases h
    · exact h

theorem nakInv_iff {s : State} : s.NakInv ↔ NaksWithinDeliveries s.station := Iff.rfl

theorem deliveryInv_iff {s : State} : s.DeliveryInv ↔ ExpectedCountsDeliveries s.station := toNat_eq_mod_iff _ _

/-- A step is idle, or a sequence of acts in which a NAK waits for `no_nak = 1`. -/
theorem step_acts {s t : State} (h : step s = .next t) : ∃ (st : Station s.cfg) (inbox : List Presented) (v : Value)
    (may : Kind → Bool → Prop), t = { s with station := st, inbox := inbox, ret := v } ∧ (∀ b, may .nak b → b = true) ∧
      Relation.ReflTransGen (Act may) s.station st := by
  rcases step_cases h with ⟨-, rfl⟩ | ⟨w, rest, i, -, hi, hexec⟩
  · exact ⟨t.station, t.inbox, t.ret, fun _ _ => False, rfl, fun _ => False.elim, .refl⟩
  · have henc : (encode s.cfg i).isSome = true := by
      rcases hi with hd | ⟨-, rfl⟩
      · exact decode_encodable hd
      · rfl
    obtain ⟨st, v, hr, rfl⟩ := ran_handler_of_exec hexec
    exact ⟨st, rest, v, permits i, rfl, fun b hb => noNak_of_permits_nak hb henc, handler_acts i st hr⟩

/-! ### The statements -/

/-- Settles O56: the other operations are not permitted to send an ACK. -/
theorem pureAckOnlyFromAckTimeout : Obligations.PureAckOnlyFromAckTimeout := by
  intro i s t h htimeout hsend
  obtain ⟨st, v, hr, rfl⟩ := ran_handler_of_exec h
  have hack : ∀ b, ¬permits i .ack b := fun b hb => by
    rcases eq_of_permits_ack hb with rfl | ⟨q, rfl⟩
    · exact htimeout rfl
    · exact hsend q rfl
  exact acts_keep (fun hact h₁ => (hact.ackCount hack).trans h₁) (handler_acts i st hr) rfl

/-- Settles O47: each act of a step keeps both counts. -/
theorem stepKeepsTheCounts : Obligations.StepKeepsTheCounts := by
  intro s t h
  obtain ⟨st, inbox, v, may, rfl, hnak, hacts⟩ := step_acts h
  rw [nakInv_iff, nakInv_iff, deliveryInv_iff, deliveryInv_iff]
  exact ⟨acts_keep (fun hact => hact.naksWithinDeliveries hnak) hacts, acts_keep Act.expectedCountsDeliveries hacts⟩

end Sys2Proof.Machine
end

section
/-! SUPPORT. The Retransmission and NAK Controller (44_timers_nak.md R200 to R207): what its operations take for their next
state, which data timers may still expire after one, and `no_nak` against the counts of deliveries and NAKs. -/

namespace Sys2Proof.Machine
open Sys2Proof

/-! ### Which number a data timer is armed for (R200, R201, R204) -/

section
variable {c : Config} (st : Station c) {q r : Seq c}

/-- A stopped timer is armed for no number of its slot. -/
theorem armedFor_stopDataTimer (h : seqSlot r = seqSlot q) : armedFor r (stopDataTimer q st) = false := by
  rw [armedFor, dataTimer_stopDataTimer, h, bank_get_set_self, Bool.false_and]

/-- Of the numbers of a slot, a started timer is armed for the one it was started for. -/
theorem armedFor_startDataTimer (h : seqSlot r = seqSlot q) : armedFor r (startDataTimer q st) = decide (q = r) := by
  rw [armedFor, dataTimer_startDataTimer, h, bank_get_set_self, Bool.true_and]

/-- R225: the expiry of a timer that is not armed for `q` is refused. -/
theorem onDataTimeout_stale (h : armedFor q st = false) : onDataTimeout q st = .refused .staleDataTimeout := by
  rw [onDataTimeout, timeoutResend, if_neg (ne_true_of_eq_false h), endHandler, chain_refused]

end

/-- Operands with one remainder modulo `NR_BUFS` name one slot. -/
theorem seqSlot_seqOf_congr {c : Config} {q r : Byte} (hq : q.toNat ≤ c.maxSeq) (hr : r.toNat ≤ c.maxSeq)
    (h : q.toNat % c.nrBufs = r.toNat % c.nrBufs) : seqSlot (seqOf c r) = seqSlot (seqOf c q) := by
  apply Fin.ext
  rw [val_seqSlot, val_seqSlot, toNat_seqOf_of_ok (seqOk_of_le hq), toNat_seqOf_of_ok (seqOk_of_le hr), h]

/-! ### The operations on the machine -/

section
variable (s : State)

theorem exec_startDataTimer {q : Byte} (hq : seqOk s.cfg q = true) :
    exec (.startDataTimer q) s = .next { s with station := startDataTimer (seqOf s.cfg q) s.station } :=
  withSeq_of_ok (k := fun k => onStation s fun st => .next (startDataTimer k st)) hq

theorem exec_stopDataTimer {q : Byte} (hq : seqOk s.cfg q = true) :
    exec (.stopDataTimer q) s = .next { s with station := stopDataTimer (seqOf s.cfg q) s.station } :=
  withSeq_of_ok (k := fun k => onStation s fun st => .next (stopDataTimer k st)) hq

theorem exec_dataTimeout_stale {q : Byte} (hq : seqOk s.cfg q = true)
    (h : armedFor (seqOf s.cfg q) s.station = false) : exec (.dataTimeout q) s = .refused .staleDataTimeout := by
  change execDataTimeout q s = _
  rw [execDataTimeout, withSeq_of_ok hq, onStation, onDataTimeout_stale _ h, chain_refused]

theorem exec_corruptNak : exec .corruptNak s = onStation s corruptNak := rfl

end

/-! ### When `no_nak` may change (R205, R206) -/

section
variable {c : Config} {may : Kind → Bool → Prop} {st st' : Station c}

/-- At least `d` deliveries, and more while `no_nak = 1`. -/
def SetByDelivery (d : Nat) (st : Station c) : Prop := d + st.noNak.toNat ≤ deliverCount st.outs

/-- At least `n` NAKs transmitted, and more while `no_nak = 0`. -/
def ClearedByNak (n : Nat) (st : Station c) : Prop := n + (!st.noNak).toNat ≤ nakCount st.outs

theorem setByDelivery_of_clear (h : st.noNak = false) : SetByDelivery (deliverCount st.outs) st := by
  rw [SetByDelivery, h]
  exact Nat.le_refl _

theorem SetByDelivery.clear {d : Nat} (h : SetByDelivery d st) (hd : deliverCount st.outs = d) : st.noNak = false := by
  rw [SetByDelivery, hd] at h
  exact Bool.toNat_eq_zero.1 (by omega)

theorem clearedByNak_of_set (h : st.noNak = true) : ClearedByNak (nakCount st.outs) st := by
  rw [ClearedByNak, h]
  exact Nat.le_refl _

theorem ClearedByNak.set {n : Nat} (h : ClearedByNak n st) (hn : nakCount st.outs = n) : st.noNak = true := by
  rw [ClearedByNak, hn] at h
  exact Bool.not_eq_eq_eq_not.1 (Bool.toNat_eq_zero.1 (by omega))

/-- Of the acts only a delivery sets `no_nak`, and it is counted. -/
theorem Act.setByDelivery {d : Nat} (h : Act may st st') (hst : SetByDelivery d st) : SetByDelivery d st' := by
  unfold SetByDelivery at hst ⊢
  cases h with
  | silent houts hn => rwa [houts, hn]
  | gate => rwa [outs_gate, noNak_gate, deliverCount_intake]
  | send _ h =>
    obtain ⟨f, -, -, -, rfl⟩ := sendFrame_eq_next st h
    rw [deliverCount_transmit]
    exact (Nat.add_le_add_left (Bool.toNat_le_toNat (Bool.and_le_left _ _)) d).trans hst
  | deliver =>
    rw [outs_deliverExpected, deliverCount_deliver, noNak_deliverExpected, Bool.toNat_true]
    omega

/-- Of the acts only a NAK clears `no_nak`, and it is counted. -/
theorem Act.clearedByNak {n : Nat} (h : Act may st st') (hst : ClearedByNak n st) : ClearedByNak n st' := by
  unfold ClearedByNak nakCount at hst ⊢
  cases h with
  | silent houts hn => rwa [houts, hn]
  | gate => rwa [outs_gate, noNak_gate, countP_isFrameOf_intake]
  | send _ h =>
    obtain ⟨f, rfl, -, -, rfl⟩ := sendFrame_eq_next st h
    rw [countP_isFrameOf_transmit]
    by_cases hf : f.kind = .nak
    · rw [if_pos hf]
      exact Nat.add_le_add (Nat.le_of_add_right_le hst) (Bool.toNat_le _)
    · simpa [hf] using hst
  | deliver =>
    rw [outs_deliverExpected, countP_isFrameOf_deliver, noNak_deliverExpected]
    exact Nat.le_of_add_right_le hst

end

/-! ### The statements -/

/-- Settles O27: the in-range operand is the number, and each write is the station's. -/
theorem timerOperationsWriteTheirTimer : Obligations.TimerOperationsWriteTheirTimer := by
  intro s q hle
  rw [exec_startDataTimer s (seqOk_of_le hle), exec_stopDataTimer s (seqOk_of_le hle), seqOf_eq_ofNat]
  exact ⟨rfl, rfl, rfl, rfl⟩

/-- Settles O30: the two values of the flag. -/
theorem corruptNakSendsAtMostOne : Obligations.CorruptNakSendsAtMostOne := by
  intro s
  rw [exec_corruptNak, onStation, corruptNak_cases, chain_next]
  constructor
  · intro hset
    rw [if_pos hset]
  · intro hclear
    rw [if_neg (ne_true_of_eq_false hclear)]

/-- Settles O28: after either operation the timer of the slot is not armed for `r`. -/
theorem staleTimersNeverExpire : Obligations.StaleTimersNeverExpire := by
  intro s t q r hq hr hmod
  have hslot := seqSlot_seqOf_congr hq hr hmod
  refine ⟨fun hstop => ?_, fun hstart hne => ?_⟩
  · rw [exec_stopDataTimer s (seqOk_of_le hq)] at hstop
    cases hstop
    exact exec_dataTimeout_stale _ (seqOk_of_le hr) (armedFor_stopDataTimer _ hslot)
  · rw [exec_startDataTimer s (seqOk_of_le hq)] at hstart
    cases hstart
    refine exec_dataTimeout_stale _ (seqOk_of_le hr) ((armedFor_startDataTimer _ hslot).trans (decide_eq_false ?_))
    rw [seqOf_eq_iff hq, toNat_seqOf_of_ok (seqOk_of_le hr), BitVec.toNat_inj]
    exact hne.symm

/-- Settles O54: no act of an operation sets `no_nak` without a delivery, or clears it without a NAK. -/
theorem noNakFollowsNaksAndDeliveries : Obligations.NoNakFollowsNaksAndDeliveries := by
  intro i s t h
  obtain ⟨st, v, hr, rfl⟩ := ran_handler_of_exec h
  have hacts := handler_acts i st hr
  refine ⟨fun hdeliveries hclear => ?_, fun hnaks hset => ?_⟩
  · exact (acts_keep Act.setByDelivery hacts (setByDelivery_of_clear hclear)).clear hdeliveries
  · exact (acts_keep Act.clearedByNak hacts (clearedByNak_of_set hset)).set hnaks

end Sys2Proof.Machine
end

section
/-! SUPPORT. The Event Dispatch Loop on the machine (45_dispatch.md R220 to R230): each event and each validated frame as the
operations it is made of, the gate last, and what a step does with the word it takes. -/

namespace Sys2Proof.Machine
open Sys2Proof

/-- A handler that is `f` and the gate from this station is `f` and then the row GATE (R230, R258). -/
theorem onStation_of_endHandler {s : State} {f g : Station s.cfg → Result (Station s.cfg)}
    (h : g s.station = endHandler (f s.station)) : onStation s g = chain (onStation s f) (exec .gate) := by
  rw [← onStation_endHandler, onStation, h]
  rfl

/-! ### The gate and CHANNEL_READY (R223, R230) -/

theorem exec_gate (s : State) : exec .gate s = .next { s with station := gate s.station } := rfl

/-- With `ch_ready` set the gate is open while the window has room. -/
theorem gateOpen_setChReady {c : Config} (st : Station c) :
    gateOpen (setChReady st) = decide (st.nbuffered.toNat < c.nrBufs) :=
  Bool.and_true _

theorem exec_channelReady (s : State) :
    exec .channelReady s = .next { s with station := gate (setChReady s.station) } := rfl

/-! ### NEW_PACKET_READY (R222) -/

section
variable {c : Config} {st : Station c}

theorem onNewPacketReady_some (p : Packet) (h : st.intakeEn = true) :
    onNewPacketReady (some p) st = endHandler (submit p st) := if_pos h

theorem onNewPacketReady_none (h : st.intakeEn = true) : onNewPacketReady none st = endHandler (.next st) := if_pos h

theorem onNewPacketReady_closed (packet : Option Packet) (h : st.intakeEn = false) :
    onNewPacketReady packet st = .refused .intakeClosed := if_neg (ne_true_of_eq_false h)

end

theorem packetOk_nil (c : Config) : packetOk c [] = true := decide_eq_true (Nat.zero_le _)

section
variable (s : State)

/-- The event tests the bound of its packet; None passes as the empty packet does. -/
theorem exec_newPacketReady {packet : Option Packet} (hp : packetOk s.cfg (packet.getD []) = true) :
    exec (.newPacketReady packet) s = onStation s (onNewPacketReady packet) := if_pos hp

theorem exec_newPacketReady_closed {packet : Option Packet} (hp : packetOk s.cfg (packet.getD []) = true)
    (h : s.station.intakeEn = false) : exec (.newPacketReady packet) s = .refused .intakeClosed := by
  rw [exec_newPacketReady s hp, onStation, onNewPacketReady_closed _ h, chain_refused]

/-! ### The two timeouts (R225, R226) -/

/-- Armed or not: where TIMEOUT_RESEND is refused, so is its event. -/
theorem exec_dataTimeout {q : Byte} (hq : seqOk s.cfg q = true) :
    exec (.dataTimeout q) s = chain (exec (.timeoutResend q) s) (exec .gate) := by
  rw [exec_timeoutResend s hq, ← onStation_endHandler]
  exact withSeq_of_ok (k := fun k => onStation s (onDataTimeout k)) hq

end

section
variable {c : Config} {st : Station c}

theorem onAckTimeout_armed (h : st.ackTimer.armed = true) :
    onAckTimeout st = endHandler (sendFrame .ack 0 (stopAckTimer st)) := if_pos h

theorem onAckTimeout_disarmed (h : st.ackTimer.armed = false) : onAckTimeout st = .refused .ackTimerDisarmed :=
  if_neg (ne_true_of_eq_false h)

end

theorem exec_ackTimeout (s : State) : exec .ackTimeout s = onStation s onAckTimeout := rfl

/-! ### The arrival of a frame (R224) -/

theorem onFrameArrived_of_frame {c : Config} {input : Option Bytes} {f : Frame} (h : validateInput c input = .frame f)
    (st : Station c) : onFrameArrived input st = endHandler (receiveFrame f st) := by
  rw [onFrameArrived, h]

section
variable (s : State)

/-- Every well-formed frame is received and the gate follows: the operand of a control frame has no payload to lose. -/
theorem exec_frameInstr {f : Frame} (hf : frameOk s.cfg f = true) :
    exec (frameInstr f) s = chain (onStation s (receiveFrame f)) (exec .gate) := by
  rw [← onStation_endHandler]
  obtain ⟨kind, a, q, p⟩ := f
  cases kind with
  | data => exact if_pos hf
  | ack | nak =>
    obtain rfl : p = [] := payload_eq_nil_of_frameOk hf nofun
    exact if_pos hf

theorem exec_frameArrived_of_frame {input : Option Bytes} {f : Frame} (h : validateInput s.cfg input = .frame f) :
    exec (.frameArrived input) s = exec (frameInstr f) s := by
  obtain ⟨-, -, -, -, -, -, hf⟩ := validate_eq_frame h
  rw [exec_frameInstr s hf]
  exact onStation_of_endHandler (onFrameArrived_of_frame h s.station)

/-- What a kind does of its own, here `f`, comes before the ACK_PROGRESS of all kinds. -/
theorem onStation_chain_ackProgress {a : Byte} (ha : seqOk s.cfg a = true)
    (f : Station s.cfg → Result (Station s.cfg)) :
    onStation s (fun st => chain (f st) fun st₁ => .next (ackProgress (seqOf s.cfg a) st₁))
      = chain (onStation s f) (exec (.ackProgress a)) := by
  rw [chain_onStation, onStation, chain_assoc]
  exact congrArg (chain _) (funext fun st => (exec_ackProgress { s with station := st } ha).symm)

end

/-! ### Events end with the gate (R220) -/

section
variable {c : Config}

/-- A station that the gate has just left: where the handler answers one, it is of this form. -/
def EndsWithGate (r : Result (Station c)) : Prop := ∀ st, r = .next st → ∃ st₁, st = gate st₁

theorem endsWithGate_endHandler (r : Result (Station c)) : EndsWithGate (endHandler r) := by
  intro st h
  obtain ⟨st₁, -, rfl⟩ := endHandler_eq_next.1 h
  exact ⟨st₁, rfl⟩

theorem endsWithGate_refused (e : Refusal) : EndsWithGate (.refused e : Result (Station c)) := nofun

variable (st : Station c)

theorem onNewPacketReady_endsWithGate (packet : Option Packet) : EndsWithGate (onNewPacketReady packet st) := by
  unfold onNewPacketReady
  split
  · exact endsWithGate_endHandler _
  · exact endsWithGate_refused _

theorem onAckTimeout_endsWithGate : EndsWithGate (onAckTimeout st) := by
  unfold onAckTimeout
  split
  · exact endsWithGate_endHandler _
  · exact endsWithGate_refused _

/-- The three frames and the five events. -/
theorem handler_endsWithGate (a q : Byte) (p : Packet) (x : Option Packet) (b : Option Bytes) :
    ∀ i ∈ [Instr.data a q p, .ack a q, .nak a q, .newPacketReady x, .channelReady, .frameArrived b, .dataTimeout q,
      .ackTimeout], EndsWithGate (handler i st) := by
  simp only [List.forall_mem_cons]
  exact ⟨endsWithGate_endHandler _, endsWithGate_endHandler _, endsWithGate_endHandler _,
    onNewPacketReady_endsWithGate st x, endsWithGate_endHandler (.next (setChReady st)), endsWithGate_endHandler _,
    endsWithGate_endHandler _, onAckTimeout_endsWithGate st, nofun⟩

theorem getLast?_outs_gate : (gate st).outs.getLast? = some (.intake (gate st).intakeEn) := by
  rw [outs_gate, intakeEn_gate, List.getLast?_concat]

end

/-! ### What a step does with the word it takes (R99, R100, R250, R270) -/

section
variable {s : State} {w : Presented}

theorem step_of_idle (h : s.inbox = []) : step s = .next s := by rw [step, h]

theorem step_of_presented {rest : List Presented} (h : s.inbox = w :: rest) :
    step s = runDecoded w { s with inbox := rest } := by rw [step, h]

theorem runDecoded_of_instr {i : Instr} (h : decode s.cfg w = .instr i) : runDecoded w s = exec i s := by
  rw [runDecoded, h]

theorem runDecoded_of_corrupt (h : decode s.cfg w = .rejected .corruptFrame) :
    runDecoded w s = exec (.frameArrived (some w.bytes)) s := by
  rw [runDecoded, h]

theorem runDecoded_of_rejected {why : DecodeError} (h : decode s.cfg w = .rejected why) (hwhy : why ≠ .corruptFrame) :
    runDecoded w s = .refused (.undecodable why) := by
  rw [runDecoded, h]
  cases why with
  | corruptFrame => exact absurd rfl hwhy
  | _ => rfl

end

/-! ### The statements -/

/-- Settles O32: the row GATE is the station's gate. -/
theorem gateDrivesTheFormula : Obligations.GateDrivesTheFormula := exec_gate

/-- Settles O33: the gate sees the flag already set. -/
theorem channelReadySetsTheFlag : Obligations.ChannelReadySetsTheFlag := by
  intro s
  rw [exec_channelReady, ← gateOpen_setChReady]
  rfl

/-- Settles O34: the packet's bound is tested first, then `intake_en`. -/
theorem newPacketIsSubmitThenGate : Obligations.NewPacketIsSubmitThenGate := by
  intro s p
  refine ⟨fun hle hopen => ?_, fun hle hclosed => ?_, withPacket_refused⟩
  · have hp : packetOk s.cfg p = true := decide_eq_true hle
    rw [exec_newPacketReady s (packet := some p) hp, exec_newPacketReady s (packetOk_nil _), exec_submit s hp hopen]
    exact ⟨onStation_of_endHandler (onNewPacketReady_some p hopen),
      onStation_of_endHandler (f := .next) (onNewPacketReady_none hopen)⟩
  · exact ⟨exec_newPacketReady_closed s (packet := some p) (decide_eq_true hle) hclosed,
      exec_newPacketReady_closed s (packetOk_nil _) hclosed⟩

/-- Settles O35: the two timer fields are the precondition, without which the expiry is stale. -/
theorem dataTimeoutIsResendThenGate : Obligations.DataTimeoutIsResendThenGate := by
  intro s q hle k
  have hq := seqOk_of_le hle
  have hk : seqOf s.cfg q = k := seqOf_eq_ofNat q
  refine ⟨fun _ => exec_dataTimeout s hq, fun hstale => exec_dataTimeout_stale s hq ?_⟩
  rw [hk, Bool.eq_false_iff, ne_eq, armedFor_iff]
  exact hstale

/-- Settles O36: the timer is stopped before the ACK goes out, and the ACK's value does not depend on it. -/
theorem ackTimeoutSendsThePureAck : Obligations.AckTimeoutSendsThePureAck := by
  intro s
  rw [exec_ackTimeout, onStation]
  refine ⟨fun harmed => ?_, fun hdisarmed => ?_⟩
  · rw [onAckTimeout_armed harmed, sendFrame_ack, endHandler, chain_next, chain_next, gate, List.append_assoc]
    rfl
  · rw [onAckTimeout_disarmed hdisarmed, chain_refused]

/-- Settles O37: the frame of each kind is received, and reception is the kind's own operation and ACK_PROGRESS. -/
theorem validatedFrameRunsItsHandlers : Obligations.ValidatedFrameRunsItsHandlers := by
  intro s a q p ha hq hp
  have hack := seqOk_of_le ha
  have hdata : frameOk s.cfg ⟨.data, a, q, p⟩ = true := frameOk_of_bounds ha hq hp (absurd rfl)
  have hcontrol : ∀ kind, frameOk s.cfg ⟨kind, a, q, []⟩ = true := fun kind =>
    frameOk_of_bounds ha hq (Nat.zero_le _) fun _ => rfl
  refine ⟨?_, ?_, ?_⟩
  · rw [← chain_assoc, exec_onFrameData s hdata, ← onStation_chain_ackProgress s hack]
    exact exec_frameInstr s hdata
  · rw [← chain_assoc, exec_nakResend s hack, ← onStation_chain_ackProgress s hack]
    exact exec_frameInstr s (hcontrol .nak)
  · rw [exec_ackProgress s hack]
    exact exec_frameInstr s (hcontrol .ack)

/-- Settles O38: the channel port decodes a string to the operation of the frame that it validates as. -/
theorem frameArrivedIsTheFrameItCarries : Obligations.FrameArrivedIsTheFrameItCarries := by
  intro s bs i h
  obtain ⟨f, hf, rfl⟩ := decodeChannel_eq_instr.1 h
  exact exec_frameArrived_of_frame s hf

/-- Settles O41, by what the decoder answers. -/
theorem stepRunsTheDecodedOperation : Obligations.StepRunsTheDecodedOperation := by
  intro s w rest
  refine ⟨step_of_idle, fun i hin hd => ?_, fun hin hd => ?_, fun why hin hd hwhy => ?_⟩
  · exact (step_of_presented hin).trans (runDecoded_of_instr hd)
  · exact (step_of_presented hin).trans (runDecoded_of_corrupt hd)
  · exact (step_of_presented hin).trans (runDecoded_of_rejected hd hwhy)

/-- Settles O58: the station is one that the gate has left, and the gate reads nothing that it writes. -/
theorem everyEventEndsWithTheGate : Obligations.EveryEventEndsWithTheGate := by
  intro s t a q p x b i hi h
  obtain ⟨st, v, hr, rfl⟩ := ran_handler_of_exec h
  obtain ⟨st₁, rfl⟩ := handler_endsWithGate s.station a q p x b i hi st hr
  exact ⟨rfl, getLast?_outs_gate st₁⟩

end Sys2Proof.Machine
end

section
/-! SUPPORT. The sender's state and the receiver's state (10_state.md R20; 45_dispatch.md R224): the operations of each unit
leave the other's registers, and the dispatcher's two flags, as they were. -/

namespace Sys2Proof.Machine
open Sys2Proof

section
variable {c : Config}

/-- What the sender's operations leave alone: the receiver's registers (R28 to R33) and the dispatcher's flags (R34, R35). -/
def receiverState (st : Station c) : Seq c × Seq c × Vector Bool c.nrBufs × Memory c × AckTimer × Bool × Bool × Bool :=
  (st.frameExpected, st.tooFar, st.arrived, st.inBuf, st.ackTimer, st.noNak, st.chReady, st.intakeEn)

/-- What the receiver's operations leave alone: the sender's registers (R23 to R27) and the dispatcher's flags. -/
def senderState (st : Station c) :
    Seq c × Seq c × Seq c × Memory c × Vector (DataTimer c) c.nrBufs × Bool × Bool :=
  (st.ackExpected, st.nextFrameToSend, st.nbuffered, st.outBuf, st.dataTimer, st.chReady, st.intakeEn)

/-- A handler from `st` that ends in `r` leaves the receiver's state as it was, where it answers a station. -/
def RunKeepsReceiver (st : Station c) (r : Result (Station c)) : Prop :=
  ∀ st', r = .next st' → receiverState st' = receiverState st

variable {st : Station c}

theorem runKeepsReceiver_next {st' : Station c} (h : receiverState st' = receiverState st) :
    RunKeepsReceiver st (.next st') := by
  rintro _ ⟨⟩
  exact h

theorem runKeepsReceiver_refused (e : Refusal) : RunKeepsReceiver st (.refused e) := nofun

/-! ### The sender's operations -/

/-- A DATA frame clears no `no_nak`, and its timer is a sender's. -/
theorem sendData_keepsReceiver (q : Seq c) :
    RunKeepsReceiver st (chain (sendFrame .data q st) fun st₁ => .next (startDataTimer q st₁)) := by
  intro st' h
  obtain ⟨st₁, h₁, h₂⟩ := chain_eq_next.1 h
  obtain ⟨f, -, -, -, rfl⟩ := sendFrame_eq_next st h₁
  cases h₂
  simp [receiverState]

theorem submit_keepsReceiver (p : Packet) : RunKeepsReceiver st (submit p st) := by
  rcases Nat.lt_or_ge st.nbuffered.toNat c.nrBufs with hroom | hfull
  · rw [submit_next st p hroom]
    exact runKeepsReceiver_next rfl
  · rw [submit_full st p hfull]
    exact runKeepsReceiver_refused _

theorem ackProgress_keepsReceiver (a : Seq c) : receiverState (ackProgress a st) = receiverState st := by
  rw [ackProgress_frame]
  rfl

theorem timeoutResend_keepsReceiver (q : Seq c) : RunKeepsReceiver st (timeoutResend q st) := by
  unfold timeoutResend
  split
  · exact sendData_keepsReceiver q
  · exact runKeepsReceiver_refused _

theorem nakResend_keepsReceiver (a : Seq c) : RunKeepsReceiver st (nakResend a st) := by
  unfold nakResend
  split
  · exact sendData_keepsReceiver _
  · exact runKeepsReceiver_next rfl

/-! ### ON_FRAME_DATA -/

/-- None of the three steps writes the sender's state. -/
theorem onFrameData_keepsSender {q : Seq c} {p : Packet} {st' : Station c} (h : onFrameData q p st = .next st') :
    senderState st' = senderState st := by
  obtain ⟨st₁, hstep1, hstep3⟩ := chain_eq_next.1 h
  have h₁ : senderState st₁ = senderState st := by
    rw [onFrameDataStep1_cases] at hstep1
    cases hstep1
    split <;> rfl
  have h₂ : senderState (onFrameDataStep2 q p st₁) = senderState st₁ := by
    rw [onFrameDataStep2_frame]
    rfl
  have h₃ : senderState st' = senderState (onFrameDataStep2 q p st₁) := by
    rw [drainLoop_frame _ _ hstep3]
    rfl
  exact h₃.trans (h₂.trans h₁)

end

/-- The inversion of `exec` where only the station is new: it is the one that the handler answers. -/
theorem handler_eq_of_exec {s : State} {i : Instr} {st : Station s.cfg}
    (h : exec i s = .next { s with station := st }) : handler i s.station = .next st := by
  obtain ⟨st', v, hr, he⟩ := ran_handler_of_exec h
  cases he
  exact hr

/-! ### The statement -/

/-- Settles O57, operation by operation. -/
theorem senderAndReceiverStateAreDisjoint : Obligations.SenderAndReceiverStateAreDisjoint := by
  intro s a q p st
  refine ⟨fun h => ?_, fun h => ?_⟩
  · have hkeeps : receiverState st = receiverState s.station := by
      rcases h with h | h | h | h
      · exact submit_keepsReceiver p st (handler_eq_of_exec h)
      · cases handler_eq_of_exec h
        exact ackProgress_keepsReceiver _
      · exact timeoutResend_keepsReceiver _ st (handler_eq_of_exec h)
      · exact nakResend_keepsReceiver _ st (handler_eq_of_exec h)
    simpa only [receiverState, Prod.mk.injEq] using hkeeps
  · have hkeeps : senderState st = senderState s.station := onFrameData_keepsSender (handler_eq_of_exec h)
    simpa only [senderState, Prod.mk.injEq] using hkeeps

end Sys2Proof.Machine
end

section
/-! SUPPORT. What a handler does from a station of the invariants (60_exceptions.md R253 to R258;
70_reset_and_hazards.md R300 to R305): its body completes with all of them but R305, and the gate at its end restores that
one. -/

namespace Sys2Proof.Machine
open Sys2Proof

/-! ### Completion and safety -/

section
variable {σ τ : Type} {P : σ → Prop} {Q : τ → Prop} {r : Result σ} {f : σ → Result τ} {s : σ}

/-- The run takes a next state, one of `P`. -/
def Completes (P : σ → Prop) (r : Result σ) : Prop := ∃ s, r = .next s ∧ P s

/-- The run does not fault, though it may be refused, and a next state of it is one of `P`. -/
structure Safe (P : σ → Prop) (r : Result σ) : Prop where
  ne_fault : ∀ e, r ≠ .fault e
  next : ∀ s, r = .next s → P s

theorem completes_next (h : P s) : Completes P (.next s) := ⟨s, rfl, h⟩

theorem completes_chain (hr : Completes P r) (hf : ∀ s, P s → Completes Q (f s)) : Completes Q (chain r f) := by
  obtain ⟨s, rfl, hs⟩ := hr
  exact hf s hs

theorem Completes.exists_next (h : Completes P r) : ∃ s, r = .next s := h.imp fun _ => And.left

theorem safe_next (h : P s) : Safe P (.next s) := ⟨nofun, by rintro _ ⟨⟩; exact h⟩

theorem safe_refused (P : σ → Prop) (e : Refusal) : Safe P (.refused e) := ⟨nofun, nofun⟩

theorem Completes.safe (h : Completes P r) : Safe P r := by
  obtain ⟨s, rfl, hs⟩ := h
  exact safe_next hs

theorem safe_chain (hr : Safe P r) (hf : ∀ s, P s → Safe Q (f s)) : Safe Q (chain r f) := by
  cases r with
  | next s => exact hf s (hr.next s rfl)
  | fault e => exact absurd rfl (hr.ne_fault e)
  | refused e => exact safe_refused Q e

end

/-! ### The bodies of the handlers -/

section
variable {c : Config}

/-- What of `Station.Inv` holds where the gate of a handler is run: all but R305. -/
structure Station.UngatedInv (st : Station c) : Prop extends st.CoreInv where
  missing : st.arrived.get (seqSlot st.frameExpected) = false

variable {st : Station c}

theorem Station.UngatedInv.of_inv (h : st.Inv) : st.UngatedInv := ⟨.of_inv h, h.expectedMissing⟩

/-- The timer of an outstanding number is restarted, and its frame sent (R162, R163). -/
theorem Station.UngatedInv.resend (h : st.UngatedInv) {q : Seq c} (hq : outstanding st q) (outs : List Output) :
    Station.UngatedInv { st with outs, dataTimer := (startDataTimer q st).dataTimer } :=
  ⟨(h.startDataTimer hq).other_registers .., h.missing⟩

theorem corruptNak_completes (h : st.UngatedInv) : Completes Station.UngatedInv (corruptNak st) := by
  refine ⟨_, corruptNak_cases st, ?_⟩
  split
  · exact { h with }
  · exact h

/-- SUBMIT with room in the window reads only the slot that it has just written. -/
theorem submit_completes (h : st.UngatedInv) {p : Packet} (hp : packetOk c p = true)
    (hroom : st.nbuffered.toNat < c.nrBufs) : Completes Station.UngatedInv (submit p st) :=
  ⟨_, submit_next st p hroom, (h.enqueue hp hroom).other_registers .., h.missing⟩

/-- An armed timer is that of an outstanding number (R302), whose slot is written (R304 a). -/
theorem timeoutResend_completes (h : st.UngatedInv) {q : Seq c} (ha : armedFor q st = true) :
    Completes Station.UngatedInv (timeoutResend q st) := by
  have hq := outstanding_of_armedFor h.toCoreInv ha
  obtain ⟨p, hp⟩ := Option.isSome_iff_exists.1 (h.outWritten q hq)
  exact ⟨_, timeoutResend_next st ha hp, h.resend hq _⟩

theorem nakResend_completes (h : st.UngatedInv) (a : Seq c) : Completes Station.UngatedInv (nakResend a st) := by
  by_cases hq : outstanding st (seqInc a)
  · obtain ⟨p, hp⟩ := Option.isSome_iff_exists.1 (h.outWritten _ hq)
    exact ⟨_, nakResend_next st hq hp, h.resend hq _⟩
  · exact ⟨_, nakResend_idle st (Bool.eq_false_iff.2 hq), h⟩

/-- Steps 1 and 2 keep the core invariants, and the drain loop restores R303. -/
theorem onFrameData_completes_inv (h : st.CoreInv) (q : Seq c) {p : Packet} (hp : packetOk c p = true) :
    Completes Station.UngatedInv (onFrameData q p st) := by
  have hstep1 : Completes Station.CoreInv (onFrameDataStep1 q st) := by
    refine ⟨_, onFrameDataStep1_cases st q, ?_⟩
    split
    · exact { h with }
    · exact { h with }
  refine completes_chain hstep1 fun _ h₁ => ?_
  have h₂ := h₁.onFrameDataStep2 q hp
  obtain ⟨st₃, hr⟩ := drainLoop_completes _ c.nrBufs h₂.inWritten
  have h₃ := drainLoop_induct _ Station.CoreInv (fun _ p _ _ h => h.deliverExpected p) c.nrBufs h₂ hr
  exact ⟨st₃, hr, h₃, onFrameDataStep3_missing hr⟩

theorem Station.UngatedInv.ackProgress (h : st.UngatedInv) (a : Seq c) : (ackProgress a st).UngatedInv where
  toCoreInv := ackLoop_induct st a Station.CoreInv (fun _ hout h₁ => (retireOldest_keeps h₁ hout).1) c.M h.toCoreInv
  missing := by
    rw [ackProgress_frame]
    exact h.missing

theorem packetOk_of_frameOk {f : Frame} (hf : frameOk c f = true) (hk : f.kind = .data) : packetOk c f.payload = true := by
  rw [frameOk, hk] at hf
  exact (Bool.and_eq_true_iff.1 hf).2

/-- A well-formed frame completes (R224): ACK_PROGRESS runs after what its kind does. -/
theorem receiveFrame_completes (h : st.UngatedInv) {f : Frame} (hf : frameOk c f = true) :
    Completes Station.UngatedInv (receiveFrame f st) := by
  refine completes_chain (P := Station.UngatedInv) ?_ fun _ h₁ => completes_next (h₁.ackProgress _)
  cases hk : f.kind with
  | data => exact onFrameData_completes_inv h.toCoreInv _ (packetOk_of_frameOk hf hk)
  | nak => exact nakResend_completes h _
  | ack => exact completes_next h

/-! ### The events -/

theorem endHandler_completes {r : Result (Station c)} (h : Completes Station.UngatedInv r) :
    Completes Station.Inv (endHandler r) :=
  completes_chain h fun _ h₁ => completes_next (h₁.toCoreInv.inv_gate h₁.missing)

/-- An open gate says that the window has room (R305). -/
theorem nbuffered_lt_of_intakeEn (h : st.Inv) (hopen : st.intakeEn = true) : st.nbuffered.toNat < c.nrBufs := by
  rw [h.gateLevel, gateOpen, Bool.and_eq_true, decide_eq_true_eq] at hopen
  exact hopen.1

theorem onNewPacketReady_completes (h : st.Inv) {packet : Option Packet} (hp : packetOk c (packet.getD []) = true)
    (hopen : st.intakeEn = true) : Completes Station.Inv (onNewPacketReady packet st) := by
  cases packet with
  | some p =>
    rw [onNewPacketReady_some p hopen]
    exact endHandler_completes (submit_completes (.of_inv h) hp (nbuffered_lt_of_intakeEn h hopen))
  | none =>
    rw [onNewPacketReady_none hopen]
    exact endHandler_completes (completes_next (.of_inv h))

theorem onChannelReady_completes (h : st.Inv) : Completes Station.Inv (onChannelReady st) :=
  endHandler_completes (completes_next { Station.UngatedInv.of_inv h with })

theorem onFrameArrived_completes (h : st.Inv) (input : Option Bytes) :
    Completes Station.Inv (onFrameArrived input st) := by
  cases hv : validateInput c input with
  | corruptionError =>
    rw [onFrameArrived_of_corrupt st hv]
    exact endHandler_completes (corruptNak_completes (.of_inv h))
  | frame f =>
    obtain ⟨-, -, -, -, -, -, hf⟩ := validate_eq_frame hv
    rw [onFrameArrived_of_frame hv]
    exact endHandler_completes (receiveFrame_completes (.of_inv h) hf)

theorem onDataTimeout_completes (h : st.Inv) {q : Seq c} (ha : armedFor q st = true) :
    Completes Station.Inv (onDataTimeout q st) :=
  endHandler_completes (timeoutResend_completes (.of_inv h) ha)

theorem onAckTimeout_completes (h : st.Inv) (ha : st.ackTimer.armed = true) :
    Completes Station.Inv (onAckTimeout st) := by
  rw [onAckTimeout_armed ha, sendFrame_ack]
  exact endHandler_completes (completes_next { Station.UngatedInv.of_inv h with })

end

/-! ### The events on the machine -/

section
variable {s : State}

theorem onStation_completes {f : Station s.cfg → Result (Station s.cfg)}
    (h : Completes Station.Inv (f s.station)) : Completes State.Inv (onStation s f) :=
  completes_chain h fun st h₁ => completes_next (P := State.Inv) (s := { s with station := st }) h₁

theorem exec_frameInstr_completes (h : s.Inv) {f : Frame} (hf : frameOk s.cfg f = true) :
    Completes State.Inv (exec (frameInstr f) s) := by
  rw [exec_frameInstr s hf, ← onStation_endHandler]
  exact onStation_completes (endHandler_completes (receiveFrame_completes (.of_inv h) hf))

theorem exec_newPacketReady_completes (h : s.Inv) {packet : Option Packet} (hp : packetOk s.cfg (packet.getD []) = true)
    (hopen : s.station.intakeEn = true) : Completes State.Inv (exec (.newPacketReady packet) s) := by
  rw [exec_newPacketReady s hp]
  exact onStation_completes (onNewPacketReady_completes h hp hopen)

theorem exec_dataTimeout_completes (h : s.Inv) {q : Byte} (hq : seqOk s.cfg q = true)
    (ha : armedFor (seqOf s.cfg q) s.station = true) : Completes State.Inv (exec (.dataTimeout q) s) := by
  rw [exec_dataTimeout s hq, exec_timeoutResend s hq, ← onStation_endHandler]
  exact onStation_completes (onDataTimeout_completes h ha)

end

/-! ### The statements on one station -/

/-- Settles O39: R302 arms the timer and R304 writes the slot of an outstanding number. -/
theorem outstandingFramesAreAlwaysResent : Obligations.OutstandingFramesAreAlwaysResent := by
  intro s q h hle hout
  obtain ⟨p, hp⟩ := Option.isSome_iff_exists.1 (h.outWritten _ hout)
  have hresend := timeoutResendsOneFrame s q p hle ((h.timersArmed _).2 ⟨_, hout, rfl⟩) (h.timersSeq _ hout) hp
  have hexec := exec_dataTimeout s (seqOk_of_le hle)
  rw [hresend, chain_next, exec_gate] at hexec
  refine ⟨p, _, hp, hexec, ?_, hout, bank_get_set_self _ _ _⟩
  rw [outs_gate, List.append_assoc, h.gateLevel]
  rfl

/-- Settles O40: each event and each frame completes, with the invariants. -/
theorem enabledEventsComplete : Obligations.EnabledEventsComplete := by
  intro s a q p x h ha hq hp
  have hdata : frameOk s.cfg ⟨.data, a, q, p⟩ = true := frameOk_of_bounds ha hq hp (absurd rfl)
  have hcontrol : ∀ kind, frameOk s.cfg ⟨kind, a, q, []⟩ = true := fun kind =>
    frameOk_of_bounds ha hq (Nat.zero_le _) fun _ => rfl
  refine ⟨?data, ?ack, ?nak, ?frameArrived, ?channelReady, fun hopen => ⟨?packet, ?noPacket⟩,
    fun harmed => ?dataTimeout, fun harmed => ?ackTimeout⟩
  case data => exact (exec_frameInstr_completes h hdata).exists_next
  case ack => exact (exec_frameInstr_completes h (hcontrol .ack)).exists_next
  case nak => exact (exec_frameInstr_completes h (hcontrol .nak)).exists_next
  case frameArrived => exact (onStation_completes (onFrameArrived_completes h x)).exists_next
  case channelReady => exact (onStation_completes (onChannelReady_completes h)).exists_next
  case packet => exact (exec_newPacketReady_completes h (packet := some p) (decide_eq_true hp) hopen).exists_next
  case noPacket => exact (exec_newPacketReady_completes h (packetOk_nil _) hopen).exists_next
  case dataTimeout =>
    rw [← seqOf_eq_ofNat, ← armedFor_iff] at harmed
    exact (exec_dataTimeout_completes h (seqOk_of_le hq) harmed).exists_next
  case ackTimeout => exact (onStation_completes (onAckTimeout_completes h harmed)).exists_next

end Sys2Proof.Machine
end

section
/-! SUPPORT. The link of two stations of the invariants (60_exceptions.md R254, R268): no move faults and every next link's
stations satisfy them, whatever stands in the channels. -/

namespace Sys2Proof.Machine
open Sys2Proof

section
variable {c : Config} {st : Station c}

/-! ### The events, enabled or not -/

theorem onNewPacketReady_safe (h : st.Inv) {packet : Option Packet} (hp : packetOk c (packet.getD []) = true) :
    Safe Station.Inv (onNewPacketReady packet st) := by
  cases hopen : st.intakeEn with
  | true => exact (onNewPacketReady_completes h hp hopen).safe
  | false =>
    rw [onNewPacketReady_closed packet hopen]
    exact safe_refused _ _

theorem onDataTimeout_safe (h : st.Inv) (q : Seq c) : Safe Station.Inv (onDataTimeout q st) := by
  cases ha : armedFor q st with
  | true => exact (onDataTimeout_completes h ha).safe
  | false =>
    rw [onDataTimeout_stale st ha]
    exact safe_refused _ _

theorem onAckTimeout_safe (h : st.Inv) : Safe Station.Inv (onAckTimeout st) := by
  cases ha : st.ackTimer.armed with
  | true => exact (onAckTimeout_completes h ha).safe
  | false =>
    rw [onAckTimeout_disarmed ha]
    exact safe_refused _ _

/-! ### The moves -/

/-- Both ends' stations satisfy the invariants. -/
def EndsInv (e : LinkEnd c × LinkEnd c) : Prop := e.1.station.Inv ∧ e.2.station.Inv

variable {me peer : LinkEnd c}

/-- No invariant speaks of the outputs, so they may be handed over. -/
theorem inv_settle (e : LinkEnd c) (h : st.Inv) : (e.settle st).station.Inv := { h with }

/-- A move that runs one handler of `me`: the channels, supplies and records do not matter. -/
theorem settle_safe {r : Result (Station c)} {e p : LinkEnd c} (hr : Safe Station.Inv r) (hp : p.station.Inv) :
    Safe EndsInv (chain r fun st => .next (e.settle st, p)) :=
  safe_chain hr fun _ h => safe_next ⟨inv_settle e h, hp⟩

theorem endMove_safe (m : LinkMove) (hme : me.station.Inv) (hpeer : peer.station.Inv) :
    Safe EndsInv (endMove m me peer) := by
  cases m with
  | offer =>
    rw [endMove]
    split
    · exact safe_refused _ _
    · split
      · next hp => exact settle_safe (onNewPacketReady_safe hme (packet := some _) hp) hpeer
      · exact safe_refused _ _
  | offerNone =>
    rw [endMove]
    split
    · exact safe_refused _ _
    · exact settle_safe (onNewPacketReady_safe hme (packetOk_nil c)) hpeer
  | channelReady => exact settle_safe (onChannelReady_completes hme).safe hpeer
  | arrive =>
    rw [endMove]
    split
    · exact safe_refused _ _
    · exact settle_safe (onFrameArrived_completes hme _).safe hpeer
  | dataTimeout q =>
    rw [endMove]
    split
    · exact settle_safe (onDataTimeout_safe hme _) hpeer
    · exact safe_refused _ _
  | ackTimeout => exact settle_safe (onAckTimeout_safe hme) hpeer
  | lose | damage =>
    rw [endMove]
    split
    · exact safe_refused _ _
    · exact safe_next ⟨hme, hpeer⟩

end

theorem linkMove_safe (w : Side) (m : LinkMove) {l : Link} (h : l.StationsInv) :
    Safe Link.StationsInv (linkMove w m l) := by
  obtain ⟨ha, hb⟩ := h
  cases w with
  | a => exact safe_chain (endMove_safe m ha hb) fun _ he => safe_next (P := Link.StationsInv) he
  | b => exact safe_chain (endMove_safe m hb ha) fun _ he => safe_next (P := Link.StationsInv) he.symm

theorem linkRun_safe (ms : List (Side × LinkMove)) {l : Link} (h : l.StationsInv) :
    Safe Link.StationsInv (linkRun ms l) := by
  induction ms generalizing l with
  | nil => exact safe_next h
  | cons m ms ih => exact safe_chain (linkMove_safe m.1 m.2 h) fun _ => ih

/-! ### The statement -/

theorem linkReset_stationsInv (c : Config) (supplyA supplyB : List Packet) :
    (linkReset c supplyA supplyB).StationsInv :=
  ⟨inv_reset c, inv_reset c⟩

/-- Settles O60: every move is safe, whatever damage it does, and so is every run from the start. -/
theorem linkNeverFaults : Obligations.LinkNeverFaults := by
  refine ⟨fun w m l h => ?_, linkReset_stationsInv, fun c supplyA supplyB ms => ?_⟩
  · obtain ⟨hfault, hnext⟩ := linkMove_safe w m h
    exact ⟨hfault, hnext⟩
  · exact (linkRun_safe ms (linkReset_stationsInv c supplyA supplyB)).ne_fault

end Sys2Proof.Machine
end

section
/-! SUPPORT. The machine at reset and along its steps (70_reset_and_hazards.md R280 to R286, R300 to R305): the registers of
the reset state, the events that it enables, and the invariants, which hold at reset and which no step breaks or faults
from. -/

namespace Sys2Proof.Machine
open Sys2Proof

/-! ### The reset state (R280) -/

theorem toNat_tooFar_reset (c : Config) : (Station.reset c).tooFar.toNat = c.nrBufs := by
  have hM := M_eq_two_nrBufs c
  have hpos := c.nrBufs_pos
  exact (toNat_ofNat_seq _).trans (Nat.mod_eq_of_lt (by omega))

/-- Nothing is held, armed or marked in any slot. -/
theorem banks_reset (c : Config) (i : Slot c) :
    (Station.reset c).outBuf.read i = none ∧ (Station.reset c).inBuf.read i = none ∧
      ((Station.reset c).dataTimer.get i).armed = false ∧ (Station.reset c).arrived.get i = false :=
  ⟨bank_get_replicate none i, bank_get_replicate none i, congrArg DataTimer.armed (bank_get_replicate _ i),
    bank_get_replicate false i⟩

theorem armedFor_reset (c : Config) (q : Seq c) : armedFor q (Station.reset c) = false := by
  obtain ⟨-, -, hdisarmed, -⟩ := banks_reset c (seqSlot q)
  rw [armedFor, hdisarmed, Bool.false_and]

/-- Nothing has been output yet, so both counts are of nothing (R184, R206). -/
theorem counts_reset (c : Config) : (State.resetOf c).NakInv ∧ (State.resetOf c).DeliveryInv :=
  ⟨Nat.le_refl 1, deliveryInv_iff.2 rfl⟩

/-! ### Operands and answers -/

section
variable {P : State → Prop} {s : State}

/-! An operand test refuses or lets the operation run: the run need be safe only for operands that pass. -/

theorem withSeq_safe {a : Byte} {k : Seq s.cfg → Result State} (h : ∀ q, Safe P (k q)) : Safe P (withSeq s a k) := by
  unfold withSeq
  split
  · exact h _
  · exact safe_refused P _

theorem withPacket_safe {p : Packet} {k : Result State} (h : packetOk s.cfg p = true → Safe P k) :
    Safe P (withPacket s p k) := by
  unfold withPacket
  split
  · next hp => exact h hp
  · exact safe_refused P _

theorem withFrame_safe {f : Frame} {k : Result State} (h : frameOk s.cfg f = true → Safe P k) :
    Safe P (withFrame s f k) := by
  unfold withFrame
  split
  · next hf => exact h hf
  · exact safe_refused P _

/-- No invariant speaks of the last answer. -/
theorem answer_safe (h : s.Inv) (v : Value) : Safe State.Inv (answer s v) :=
  safe_next (P := State.Inv) (s := { s with ret := v }) h

theorem onStation_safe {f : Station s.cfg → Result (Station s.cfg)} (h : Safe Station.Inv (f s.station)) :
    Safe State.Inv (onStation s f) :=
  safe_chain h fun st h₁ => safe_next (P := State.Inv) (s := { s with station := st }) h₁

end

/-! ### Every operation that can be presented -/

/-- The whole handler of a received frame, the gate included. -/
theorem receiveFrame_gate_safe {c : Config} {st : Station c} (h : st.Inv) {f : Frame} (hf : frameOk c f = true) :
    Safe Station.Inv (endHandler (receiveFrame f st)) :=
  (endHandler_completes (receiveFrame_completes (.of_inv h) hf)).safe

/-- Frames, events and Sequence Space selects keep the invariants and never fault. The operations with no encoding are
parts of handlers, and need not do so alone. -/
theorem exec_safe {s : State} (h : s.Inv) {i : Instr} (henc : (encode s.cfg i).isSome = true) :
    Safe State.Inv (exec i s) := by
  cases i with
  | data | ack | nak => exact withFrame_safe fun hf => onStation_safe (receiveFrame_gate_safe h hf)
  | newPacketReady => exact withPacket_safe fun hp => onStation_safe (onNewPacketReady_safe h hp)
  | channelReady => exact onStation_safe (onChannelReady_completes h).safe
  | frameArrived input => exact onStation_safe (onFrameArrived_completes h input).safe
  | dataTimeout => exact withSeq_safe fun q => onStation_safe (onDataTimeout_safe h q)
  | ackTimeout => exact onStation_safe (onAckTimeout_safe h)
  | inc | pred | addw | slot => exact withSeq_safe fun _ => answer_safe h _
  | dist => exact withSeq_safe fun _ => withSeq_safe fun _ => answer_safe h _
  | between => exact withSeq_safe fun _ => withSeq_safe fun _ => withSeq_safe fun _ => answer_safe h _
  | _ => cases henc

/-! ### Every step -/

theorem runDecoded_safe {s : State} (h : s.Inv) (w : Presented) : Safe State.Inv (runDecoded w s) := by
  cases hd : decode s.cfg w with
  | instr i =>
    rw [runDecoded_of_instr hd]
    exact exec_safe h (decode_encodable hd)
  | rejected why =>
    by_cases hwhy : why = .corruptFrame
    · subst hwhy
      rw [runDecoded_of_corrupt hd]
      exact exec_safe h rfl
    · rw [runDecoded_of_rejected hd hwhy]
      exact safe_refused _ _

/-- A step is idle, or runs the word it takes: no invariant speaks of what waits to be presented. -/
theorem step_safe {s : State} (h : s.Inv) : Safe State.Inv (step s) := by
  cases hin : s.inbox with
  | nil =>
    rw [step_of_idle hin]
    exact safe_next h
  | cons w rest =>
    rw [step_of_presented hin]
    exact runDecoded_safe (s := { s with inbox := rest }) h w

/-! ### The statements -/

/-- Settles O45: every step is safe. -/
theorem stepKeepsTheInvariants : Obligations.StepKeepsTheInvariants := fun _ t h => (step_safe h).next t

/-- Settles O46: every step is safe. -/
theorem stepNeverReadsAnUnwrittenSlot : Obligations.StepNeverReadsAnUnwrittenSlot := fun _ f h => (step_safe h).ne_fault f

/-- Settles O42: R280 register by register, `too_far` as a number and the banks slot by slot. -/
theorem resetValues : Obligations.ResetValues :=
  ⟨rfl, fun c => ⟨rfl, rfl, rfl, rfl, rfl, rfl, toNat_tooFar_reset c, banks_reset c, rfl, rfl, rfl, rfl⟩⟩

/-- Settles O43: a frame may arrive in every state of the invariants; the gate is closed and no timer is armed. -/
theorem resetEnablesTwoEvents : Obligations.ResetEnablesTwoEvents := by
  intro c q p x hq hp
  refine ⟨?channelReady, ?frameArrived, ?packet, ?noPacket, ?dataTimeout, ?ackTimeout⟩
  case channelReady => exact ⟨_, exec_channelReady _⟩
  case frameArrived => exact (onStation_completes (onFrameArrived_completes (inv_reset c) x)).exists_next
  case packet => exact exec_newPacketReady_closed (packet := some p) _ (decide_eq_true hp) rfl
  case noPacket => exact exec_newPacketReady_closed _ (packetOk_nil c) rfl
  case dataTimeout => exact exec_dataTimeout_stale _ (seqOk_of_le hq) (armedFor_reset c _)
  case ackTimeout => rw [exec_ackTimeout, onStation, onAckTimeout_disarmed rfl, chain_refused]

/-- Settles O44: the invariants as at the start of a link, and the counts. -/
theorem resetSatisfiesTheInvariants : Obligations.ResetSatisfiesTheInvariants := fun c => ⟨inv_reset c, counts_reset c⟩

end Sys2Proof.Machine
end

section
/-! SUPPORT. The calls that stop (93_implementation_defined.md U2, U4, U6): which operations read the slot of a number, and
fault where it was never written (D35), and which refuse a call against their precondition (D30). -/

namespace Sys2Proof.Machine
open Sys2Proof

/-! ### The station's operations -/

section
variable {c : Config} (st : Station c) {q a : Seq c}

theorem build_data_unwritten (h : st.outBuf.read (seqSlot q) = none) : build .data q st = none := by
  rw [build, h, Option.map_none]

/-- U4: a timer that is not armed for `q` has nothing to resend. -/
theorem timeoutResend_stale (h : armedFor q st = false) : timeoutResend q st = .refused .staleDataTimeout :=
  if_neg (ne_true_of_eq_false h)

theorem timeoutResend_unwritten (harmed : armedFor q st = true) (h : st.outBuf.read (seqSlot q) = none) :
    timeoutResend q st = .fault (.unwrittenOutSlot (seqSlot q).val) := by
  rw [timeoutResend, if_pos harmed, sendFrame_data_unwritten st h, chain_fault]

theorem nakResend_unwritten (hout : seqBetween st.ackExpected (seqInc a) st.nextFrameToSend = true)
    (h : st.outBuf.read (seqSlot (seqInc a)) = none) :
    nakResend a st = .fault (.unwrittenOutSlot (seqSlot (seqInc a)).val) := by
  rw [nakResend, if_pos hout, sendFrame_data_unwritten st h, chain_fault]

theorem drainLoop_unwritten {k : Nat} (hk : 0 < k) (hmark : st.arrived.get (seqSlot st.frameExpected) = true)
    (h : st.inBuf.read (seqSlot st.frameExpected) = none) :
    drainLoop k st = .fault (.unwrittenInSlot (seqSlot st.frameExpected).val) := by
  cases k with
  | zero => exact absurd hk (Nat.lt_irrefl 0)
  | succ k => rw [drainLoop, if_pos hmark, h]

/-- There is a slot, so step 3 tests the number it expects at least once. -/
theorem onFrameDataStep3_unwritten (hmark : st.arrived.get (seqSlot st.frameExpected) = true)
    (h : st.inBuf.read (seqSlot st.frameExpected) = none) :
    onFrameDataStep3 st = .fault (.unwrittenInSlot (seqSlot st.frameExpected).val) :=
  drainLoop_unwritten st c.nrBufs_pos hmark h

end

/-- An operand in range names the slot of its own remainder modulo `NR_BUFS` (R123). -/
theorem val_seqSlot_seqOf {c : Config} {q : Byte} (hq : q.toNat ≤ c.maxSeq) :
    (seqSlot (seqOf c q)).val = q.toNat % c.nrBufs := by
  rw [val_seqSlot, toNat_seqOf_of_ok (seqOk_of_le hq)]

/-! ### The operations on the machine -/

section
variable (s : State)

theorem exec_build_unwritten {q : Byte} (hq : seqOk s.cfg q = true)
    (h : s.station.outBuf.read (seqSlot (seqOf s.cfg q)) = none) :
    exec (.build .data q) s = .fault (.unwrittenOutSlot (seqSlot (seqOf s.cfg q)).val) := by
  change execBuild .data q s = _
  rw [execBuild, withSeq_of_ok hq, build_data_unwritten _ h]

theorem exec_sendFrame_unwritten {q : Byte} (hq : seqOk s.cfg q = true)
    (h : s.station.outBuf.read (seqSlot (seqOf s.cfg q)) = none) :
    exec (.sendFrame .data q) s = .fault (.unwrittenOutSlot (seqSlot (seqOf s.cfg q)).val) := by
  change execSendFrame .data q s = _
  rw [execSendFrame, withSeq_of_ok hq, onStation, sendFrame_data_unwritten _ h, chain_fault]

theorem exec_submit_closed {p : Packet} (hp : packetOk s.cfg p = true) (hin : s.station.intakeEn = false) :
    exec (.submit p) s = .refused .intakeClosed := by
  change execSubmit p s = _
  rw [execSubmit, withPacket, if_pos hp, if_neg (ne_true_of_eq_false hin)]

theorem exec_onFrameDataStep3 : exec .onFrameDataStep3 s = onStation s onFrameDataStep3 := rfl

end

/-! ### The statements -/

/-- Settles O48: each reader of an output slot sends or builds the frame of its number, and step 3 reads the slot it has
found marked. -/
theorem unwrittenSlotsFault : Obligations.UnwrittenSlotsFault := by
  intro s q hle
  have hq := seqOk_of_le hle
  rw [← val_seqSlot_seqOf hle, ← seqOf_eq_ofNat q]
  intro k
  refine ⟨fun hnone => ⟨?build, ?sendFrame, fun harmed hseq => ?timeoutResend, fun a ha hsucc hout => ?nakResend⟩,
    fun hmark hnone => ?step3⟩
  case build => exact exec_build_unwritten s hq hnone
  case sendFrame => exact exec_sendFrame_unwritten s hq hnone
  case timeoutResend =>
    rw [exec_timeoutResend s hq, onStation_eq_fault]
    exact timeoutResend_unwritten _ ((armedFor_iff _ k).2 ⟨harmed, hseq⟩) hnone
  case nakResend =>
    have htarget : seqInc (seqOf s.cfg a) = k := by rw [seqOf_eq_ofNat, seqInc_ofNat, hsucc]
    rw [← htarget] at hnone hout
    rw [exec_nakResend s (seqOk_of_le ha), onStation_eq_fault, nakResend_unwritten _ hout hnone, htarget]
  case step3 =>
    rw [exec_onFrameDataStep3, onStation_eq_fault]
    exact onFrameDataStep3_unwritten _ hmark hnone

/-- Settles O49: the gate stands before SUBMIT, the window inside it, and the timer before TIMEOUT_RESEND. -/
theorem callsAgainstTheirPreconditionHaveNoStep : Obligations.CallsAgainstTheirPreconditionHaveNoStep := by
  intro s p q hlen hle
  have hp : packetOk s.cfg p = true := decide_eq_true hlen
  rw [← seqOf_eq_ofNat q]
  intro k
  refine ⟨exec_submit_closed s hp, fun hin hfull => ?full, fun hstale => ?stale⟩
  case full => rw [exec_submit s hp hin, onStation, submit_full _ p hfull, chain_refused]
  case stale =>
    rw [← armedFor_iff, Bool.not_eq_true] at hstale
    rw [exec_timeoutResend s (seqOk_of_le hle), onStation, timeoutResend_stale _ hstale, chain_refused]

end Sys2Proof.Machine
end
